-- ==== Sys2Proof/Word.lean ====
section
/-! DEFINITION. The byte (00_scope R7). -/

namespace Sys2Proof

/-- A byte: 8 bits, an unsigned value 0x00 to 0xFF (00_scope R7, decision D19). -/
abbrev Byte := BitVec 8

end Sys2Proof
end

