-- ==== Sys2Proof/Config.lean ====
section
/-! DEFINITION. What the spec leaves open: the frame size of the instance that `State.reset`
describes, and the source of unspecified bytes. Neither has a body a proof could use. -/

namespace Sys2Proof

/-- `MAX_FRAME` less one, open (00_scope R6, decisions D1 and D30, 93 U6; log 1). -/
opaque Config.maxFramePred : Nat

/-- `MAX_FRAME` of the instance after power-on: any positive integer (00_scope R6). -/
def Config.maxFrame : Nat := Config.maxFramePred + 1

/-- The free bytes: what a payload read outside its window, or of a cell nothing has written since
power-on, returns (10_state R28, R35; 93 U4, U5; log 3). Applied to the draw counter. -/
opaque Config.freeByte : Nat → Byte

end Sys2Proof
end

