-- ==== Sys2Proof/Machine/Interface.lean ====
section
/-! DEFINITION. The data that crosses the block's boundary: the requests a host makes, what selects
an operation, the outputs of an operation, and the pins of the port-level realisation. -/

namespace Sys2Proof

/-- The decoder's state, "one of `{Normal, Escaping}`" (10_state R21). -/
inductive DState where
  | normal
  | escaping
  deriving DecidableEq, Repr

/-- The first output of `consume` (10_state R29). -/
inductive Result where
  | incomplete
  | frameComplete (length : Nat)
  deriving DecidableEq, Repr

/-- The second output of `consume` (10_state R30, 60_exceptions R150). -/
inductive Signal where
  | none
  | frameOverflow
  | invalidEscapeSequence
  deriving DecidableEq, Repr

/-- The two outputs of one `consume` (41_decoder R85). -/
structure DecOut where
  result : Result
  signal : Signal
  deriving DecidableEq, Repr

/-- A call on the decoder (00_scope R11). -/
inductive DecCall where
  /-- `consume(b)`. -/
  | consume (b : Byte)
  /-- `reset()`. -/
  | reset
  deriving DecidableEq, Repr

/-- What the encoder's `op_kind` and `op_byte` present (20_memory R52, 30_encoding R70). -/
inductive EncOp where
  | sof
  | byte (b : Byte)
  | eof
  /-- `op_kind == 3`, not used (refused). -/
  | kind3
  deriving DecidableEq, Repr

/-- One operation asked of the block. -/
inductive Request where
  | dec (c : DecCall)
  | enc (o : EncOp)
  deriving DecidableEq, Repr

/-- What selects an operation beside the byte: `dstate`, and whether `dlen == 0` (30_encoding R65). -/
structure Selector where
  dstate : DState
  empty : Bool
  deriving DecidableEq, Repr

/-- Why a request names no operation. -/
inductive Reject where
  /-- `op_kind == 3` (30_encoding R70; 93 U8). -/
  | reservedOpKind
  deriving DecidableEq, Repr

/-- The decoder's input pins at one rising edge, less `rst` (20_memory R50). -/
structure DecPins where
  clr : Bool
  inValid : Bool
  inByte : Byte
  rdIdx : Nat
  deriving DecidableEq, Repr

/-- The encoder's input pins at one rising edge, less `rst` (20_memory R52). -/
structure EncPins where
  opValid : Bool
  opKind : BitVec 2
  opByte : Byte
  outReady : Bool
  deriving DecidableEq, Repr

/-- Every output pin, as it stands at one rising edge (20_memory R50, R52). -/
structure PortSample where
  inReady : Bool
  resKind : BitVec 1
  resLen : Nat
  signal : BitVec 2
  rdByte : Byte
  payValid : Bool
  payLen : Nat
  opReady : Bool
  outValid : Bool
  outByte : Byte
  deriving DecidableEq, Repr

/-- What a host can do to the machine, one item (70_reset_and_hazards R175). -/
inductive Input where
  /-- Ask for one operation. -/
  | op (r : Request)
  /-- `encode(M)` on a whole message (42_encoder R112). -/
  | encode (m : List Byte)
  /-- A payload read of index `i` (10_state R28). -/
  | read (i : Nat)
  /-- Hardware reset of the whole block (70_reset_and_hazards R170). -/
  | hardReset
  /-- Two calls on one decoder instance that overlap in time (20_memory R47). -/
  | overlap (c1 c2 : DecCall)
  /-- One rising edge of `clk` with the pins as given; `rst` is one pin, the decoder's and the
  encoder's (20_memory R50 to R52; log 22). -/
  | edge (rst : Bool) (d : DecPins) (e : EncPins)
  deriving DecidableEq, Repr

end Sys2Proof
end

