-- ==== Sys2Proof/Machine/State.lean ====
section
/-! DEFINITION. The state of one decoder instance and one encoder (10_state R20), the reasons a
step can stop, and the state after power-on. -/

namespace Sys2Proof.Machine

/-- The one fault. The block itself has none (60_exceptions R155). -/
inductive Fault where
  /-- Raised by an append while `dlen > MAX_FRAME`: cell `dlen` does not exist (20_memory R41) and
  R92 gives no case. No reachable state (R131). Safe: the model stops (log 7). -/
  | noSuchCell (address : Nat)
  deriving DecidableEq, Repr

/-- Why an operation has no step. -/
inductive Refusal where
  /-- Raised by an arm of `exec` that has no meaning yet; no arm is one. Safe. -/
  | notModelled (mnemonic : String)
  /-- Raised by a meaning named in a state, or with a byte, that does not select it (30_encoding
  R65, R66); no step raises it, since a step decodes first. Safe (log 6). -/
  | notSelected
  /-- Raised by `ENC.SOF` while `eopen == 1`: `refuse` (42_encoder R114). Safe. -/
  | messageAlreadyOpen
  /-- Raised by `ENC.BYTE` and `ENC.EOF` while `eopen == 0`: `refuse` (42_encoder R115, R116).
  Safe. -/
  | noMessageOpen
  /-- Raised by a request with `op_kind == 3`: `refuse` (30_encoding R70, 93 U8). Safe. -/
  | reservedOpKind
  /-- Raised by two overlapping calls on one decoder instance: `refuse` (20_memory R47, 93 U2).
  Safe. -/
  | overlappingCalls
  deriving DecidableEq, Repr

/-- The frame buffer's written cells: address and byte, addresses strictly rising. A cell that is
not listed is unspecified (10_state R33, R35; log 2). -/
abbrev Memory := List Host.Cell

/-- The state (10_state R20), the serialiser (42_encoder R121), the decoder's output ports
(20_memory R51), the instance's configuration, and the model's own record of the two sides of the
host interface (log 10). -/
structure State where
  /-- `MAX_FRAME`, configuration: no operation writes it (10_state R25; log 1). -/
  maxFrame : Nat
  /-- The decoder's state (10_state R21). -/
  dstate : DState
  /-- The length counter (10_state R22). -/
  dlen : Nat
  /-- The frame buffer (10_state R24). -/
  dbuf : Memory
  /-- The payload window is open (10_state R27). -/
  pvalid : Bool
  /-- The length reported when the window opened (10_state R27). -/
  plen : Nat
  /-- A stream-form message is open (10_state R31). -/
  eopen : Bool
  /-- The serialiser's holding register, with its pending bit as presence (42_encoder R121). -/
  held : Option Byte
  /-- What the decoder's output ports show: the outputs of the `consume` of the last edge
  (20_memory R51; log 11). -/
  lastOut : Option DecOut
  /-- What the hosts have asked and the machine has not taken yet, oldest first (00_scope R12). -/
  inbox : List Input
  /-- The model's own: every (`result`, `signal`) so far, oldest first (70 R184). -/
  outputs : List DecOut
  /-- The outbound byte stream, appended at the back (20_memory R40). -/
  outbound : List Byte
  /-- The model's own: the bytes the transport took at the encoder's port (20_memory R52). -/
  sent : List Byte
  /-- The model's own: the bytes payload reads returned (10_state R28). -/
  reads : List Byte
  /-- The model's own: the output pins at each edge (20_memory R50, R52). -/
  samples : List PortSample
  /-- The model's own: how many free bytes were drawn (93 U4). -/
  draws : Nat
  deriving DecidableEq, Repr

/-- An outcome of this machine. -/
abbrev Out := Host.Outcome State Fault Refusal

/-- An instance with `MAX_FRAME = n` right after power-on (10_state R33, 70_reset_and_hazards
R170): no buffer cell holds a specified byte. -/
def State.powerOn (n : Nat) : State where
  maxFrame := n
  dstate := .normal
  dlen := 0
  dbuf := []
  pvalid := false
  plen := 0
  eopen := false
  held := none
  lastOut := none
  inbox := []
  outputs := []
  outbound := []
  sent := []
  reads := []
  samples := []
  draws := 0

/-- The machine right after reset, for an open `MAX_FRAME >= 1` (00_scope R6; log 1). -/
def State.reset : State := State.powerOn Config.maxFrame

end Sys2Proof.Machine
end

