-- ==== Sys2Proof/Machine/Flags.lean ====
section
/-! DEFINITION. The block's flags are the two outputs of a decoder operation, `result` and `signal`
(10_state R29, R30): how they are shown, their codes (30_encoding R70), the width `LENW`. -/

namespace Sys2Proof.Machine

/-- An operation shows its outputs (10_state R29, R30; 20_memory R51). -/
def State.report (r : Result) (g : Signal) (s : State) : State :=
  { s with lastOut := some ⟨r, g⟩, outputs := s.outputs ++ [⟨r, g⟩] }

/-- `dstate` as one bit (30_encoding R70). -/
def dstateCode : DState → BitVec 1
  | .normal => 0#1
  | .escaping => 1#1

/-- `signal` as two bits; 3 is never produced (30_encoding R70). -/
def signalCode : Signal → BitVec 2
  | .none => 0#2
  | .frameOverflow => 1#2
  | .invalidEscapeSequence => 2#2

/-- `res_kind` of a result (30_encoding R70). -/
def resKindCode : Result → BitVec 1
  | .incomplete => 0#1
  | .frameComplete _ => 1#1

/-- `res_len` of a result: the length, or 0 (30_encoding R70). -/
def resLenCode : Result → Nat
  | .incomplete => 0
  | .frameComplete n => n

/-- The port `res_kind`; 0 after an edge with no `consume` (20_memory R51). -/
def State.resKind (s : State) : BitVec 1 :=
  match s.lastOut with
  | some o => resKindCode o.result
  | none => 0#1

/-- The port `res_len`; 0 after an edge with no `consume` (20_memory R51). -/
def State.resLen (s : State) : Nat :=
  match s.lastOut with
  | some o => resLenCode o.result
  | none => 0

/-- The port `signal`; 0 after an edge with no `consume` (20_memory R51). -/
def State.signalPort (s : State) : BitVec 2 :=
  match s.lastOut with
  | some o => signalCode o.signal
  | none => 0#2

/-- `LENW = ceil(log2(MAX_FRAME + 1))` (00_scope R9): the number of binary digits of `MAX_FRAME`. -/
def lenw (maxFrame : Nat) : Nat := maxFrame.log2 + 1

end Sys2Proof.Machine
end

