-- ==== Sys2Proof/Machine/Constants.lean ====
section
/-! DEFINITION. The Protocol Constants component (30_encoding R60, 40_protocol_constants R80 to
R83): four literals, defined once and used by decoder and encoder alike. -/

namespace Sys2Proof

/-- `END = 0xC0`, the frame delimiter (30_encoding R60). -/
def END : Byte := 0xC0#8
/-- `ESC = 0xDB`, the escape introducer (30_encoding R60). -/
def ESC : Byte := 0xDB#8
/-- `ESC_END = 0xDC`, the code that stands for `END` (30_encoding R60). -/
def ESC_END : Byte := 0xDC#8
/-- `ESC_ESC = 0xDD`, the code that stands for `ESC` (30_encoding R60). -/
def ESC_ESC : Byte := 0xDD#8

end Sys2Proof
end

