-- ==== Sys2Proof/Syntax.lean ====
section
/-! DEFINITION. The operations of the block: one constructor per row of spec/opcode_table.json
(00_scope R11, 30_encoding R65, R66). -/

namespace Sys2Proof

/-- The 13 rows of the operation map. A row that takes every byte but the listed exceptions
carries its byte. -/
inductive Instr where
  /-- `DEC.END_EMPTY`: `END` in `Normal`, buffer empty (R86). -/
  | decEndEmpty
  /-- `DEC.END_FRAME`: `END` in `Normal`, buffer not empty (R87). -/
  | decEndFrame
  /-- `DEC.ESC`: `ESC` in `Normal` (R88). -/
  | decEsc
  /-- `DEC.LIT`: any other byte in `Normal` (R89). -/
  | decLit (b : Byte)
  /-- `DEC.ESC_END`: `ESC_END` in `Escaping` (R90). -/
  | decEscEnd
  /-- `DEC.ESC_ESC`: `ESC_ESC` in `Escaping` (R94). -/
  | decEscEsc
  /-- `DEC.BAD_ESC`: any other byte in `Escaping` (R91). -/
  | decBadEsc (b : Byte)
  /-- `DEC.RESET`: the operation `reset()` (R96). -/
  | decReset
  /-- `ENC.SOF`: start of a message (R114). -/
  | encSof
  /-- `ENC.BYTE.END`: the message byte 0xC0 (R115). -/
  | encByteEnd
  /-- `ENC.BYTE.ESC`: the message byte 0xDB (R115). -/
  | encByteEsc
  /-- `ENC.BYTE.LIT`: any other message byte (R115). -/
  | encByteLit (b : Byte)
  /-- `ENC.EOF`: end of a message (R116). -/
  | encEof
  deriving DecidableEq, Repr

end Sys2Proof
end

