-- ==== Sys2Proof/WellFormed.lean ====
section
/-! DEFINITION. Which terms of `Instr` stand for an operation: the rows with mask 0x00 exclude the
bytes that more specific rows take first (30_encoding R65, R66, R73). -/

namespace Sys2Proof

/-- The byte of a default row is none of that row's exceptions. -/
def Instr.wf : Instr → Bool
  | .decLit b => b != END && b != ESC
  | .decBadEsc b => b != ESC_END && b != ESC_ESC
  | .encByteLit b => b != END && b != ESC
  | .decEndEmpty => true
  | .decEndFrame => true
  | .decEsc => true
  | .decEscEnd => true
  | .decEscEsc => true
  | .decReset => true
  | .encSof => true
  | .encByteEnd => true
  | .encByteEsc => true
  | .encEof => true

end Sys2Proof
end

