-- ==== Sys2Proof/Decode.lean ====
section
/-! DEFINITION. The operation map (30_encoding R65, R66, R73) as a decoder from a request and its
selector to an operation, the same map as rows of match and mask, and the encoder back. -/

namespace Sys2Proof

/-- Which of the seven cases of `consume(b)` applies (30_encoding R65, 40_protocol_constants R81). -/
def decodeConsume (c : Selector) (b : Byte) : Instr :=
  match c.dstate with
  | .normal =>
    if b = END then (if c.empty then .decEndEmpty else .decEndFrame)
    else if b = ESC then .decEsc
    else .decLit b
  | .escaping =>
    if b = ESC_END then .decEscEnd
    else if b = ESC_ESC then .decEscEsc
    else .decBadEsc b

/-- Which of the three cases of `ENC.BYTE(b)` applies (30_encoding R66). -/
def decodeMessageByte (b : Byte) : Instr :=
  if b = END then .encByteEnd
  else if b = ESC then .encByteEsc
  else .encByteLit b

/-- The operation a request selects, or the name of why there is none. Total. -/
def decode (c : Selector) : Request → Except Reject Instr
  | .dec (.consume b) => .ok (decodeConsume c b)
  | .dec .reset => .ok .decReset
  | .enc .sof => .ok .encSof
  | .enc (.byte b) => .ok (decodeMessageByte b)
  | .enc .eof => .ok .encEof
  | .enc .kind3 => .error .reservedOpKind

/-- The encoder operation that the pins `op_kind`, `op_byte` present (30_encoding R70). -/
def decodeOpKind (k : BitVec 2) (b : Byte) : EncOp :=
  if k = 0#2 then .sof
  else if k = 1#2 then .byte b
  else if k = 2#2 then .eof
  else .kind3

/-- `op_kind` of an encoder operation (30_encoding R70). -/
def encodeOpKind : EncOp → BitVec 2
  | .sof => 0#2
  | .byte _ => 1#2
  | .eof => 2#2
  | .kind3 => 3#2

/-- The request an operation answers: its selecting byte where it has one (30_encoding R65, R66). -/
def encode : Instr → Request
  | .decEndEmpty => .dec (.consume END)
  | .decEndFrame => .dec (.consume END)
  | .decEsc => .dec (.consume ESC)
  | .decLit b => .dec (.consume b)
  | .decEscEnd => .dec (.consume ESC_END)
  | .decEscEsc => .dec (.consume ESC_ESC)
  | .decBadEsc b => .dec (.consume b)
  | .decReset => .dec .reset
  | .encSof => .enc .sof
  | .encByteEnd => .enc (.byte END)
  | .encByteEsc => .enc (.byte ESC)
  | .encByteLit b => .enc (.byte b)
  | .encEof => .enc .eof

/-- `c` with what the operation's row asks of the selector put in: `fields.state` and
`fields.cond` of the row (30_encoding R73). What the row leaves free stays as `c` has it. -/
def Instr.selectorIn (i : Instr) (c : Selector) : Selector :=
  match i with
  | .decEndEmpty => ⟨.normal, true⟩
  | .decEndFrame => ⟨.normal, false⟩
  | .decEsc => ⟨.normal, c.empty⟩
  | .decLit _ => ⟨.normal, c.empty⟩
  | .decEscEnd => ⟨.escaping, c.empty⟩
  | .decEscEsc => ⟨.escaping, c.empty⟩
  | .decBadEsc _ => ⟨.escaping, c.empty⟩
  | .decReset => c
  | .encSof => c
  | .encByteEnd => c
  | .encByteEsc => c
  | .encByteLit _ => c
  | .encEof => c

/-- The formats of opcode_table.json (30_encoding R73). -/
inductive Format where
  | decN
  | decE
  | decCtl
  | encB
  | encCtl
  deriving DecidableEq, Repr

/-- One row of opcode_table.json (30_encoding R73). `dlenZero` is `fields.cond` of a decoder row;
`opKind` tells the two `ENC.CTL` rows apart (30_encoding R70). -/
structure Row where
  mnemonic : String
  format : Format
  mat : Byte
  mask : Byte
  except : List Byte
  dlenZero : Option Bool
  opKind : Option (BitVec 2)
  deriving DecidableEq, Repr

/-- `(b & mask) == match`, less the bytes more specific rows take first (30_encoding R73). -/
def Row.takesByte (r : Row) (b : Byte) : Bool :=
  b &&& r.mask == r.mat && !r.except.contains b

/-- Whether a row's condition on `dlen` holds. -/
def Row.condHolds (r : Row) (c : Selector) : Bool :=
  match r.dlenZero with
  | none => true
  | some z => z == c.empty

/-- Whether a row takes a request under a selector (30_encoding R65, R66, R73). -/
def Row.takes (r : Row) (c : Selector) : Request → Bool
  | .dec (.consume b) =>
    match r.format with
    | .decN => c.dstate == .normal && r.takesByte b && r.condHolds c
    | .decE => c.dstate == .escaping && r.takesByte b && r.condHolds c
    | _ => false
  | .dec .reset => r.format == .decCtl
  | .enc (.byte b) => r.format == .encB && r.takesByte b
  | .enc o => r.format == .encCtl && r.opKind == some (encodeOpKind o)

/-- The table: the row of each operation, as opcode_table.json prints it. -/
def Instr.row : Instr → Row
  | .decEndEmpty => ⟨"DEC.END_EMPTY", .decN, 0xC0#8, 0xFF#8, [], some true, none⟩
  | .decEndFrame => ⟨"DEC.END_FRAME", .decN, 0xC0#8, 0xFF#8, [], some false, none⟩
  | .decEsc => ⟨"DEC.ESC", .decN, 0xDB#8, 0xFF#8, [], none, none⟩
  | .decLit _ => ⟨"DEC.LIT", .decN, 0x00#8, 0x00#8, [0xC0#8, 0xDB#8], none, none⟩
  | .decEscEnd => ⟨"DEC.ESC_END", .decE, 0xDC#8, 0xFF#8, [], none, none⟩
  | .decEscEsc => ⟨"DEC.ESC_ESC", .decE, 0xDD#8, 0xFF#8, [], none, none⟩
  | .decBadEsc _ => ⟨"DEC.BAD_ESC", .decE, 0x00#8, 0x00#8, [0xDC#8, 0xDD#8], none, none⟩
  | .decReset => ⟨"DEC.RESET", .decCtl, 0x00#8, 0x00#8, [], none, none⟩
  | .encSof => ⟨"ENC.SOF", .encCtl, 0x00#8, 0x00#8, [], none, some 0#2⟩
  | .encByteEnd => ⟨"ENC.BYTE.END", .encB, 0xC0#8, 0xFF#8, [], none, none⟩
  | .encByteEsc => ⟨"ENC.BYTE.ESC", .encB, 0xDB#8, 0xFF#8, [], none, none⟩
  | .encByteLit _ => ⟨"ENC.BYTE.LIT", .encB, 0x00#8, 0x00#8, [0xC0#8, 0xDB#8], none, none⟩
  | .encEof => ⟨"ENC.EOF", .encCtl, 0x00#8, 0x00#8, [], none, some 2#2⟩

/-- The selector under which a bare byte of the table is read: the state whose rows of mask 0xFF
list it, with an empty buffer (log 9). A bare byte does not carry its selector. -/
def tableSelector (b : Byte) : Selector :=
  ⟨if b = ESC_END ∨ b = ESC_ESC then .escaping else .normal, true⟩

/-- The request a table word stands for: one byte is a byte given to `consume`; no bits at all is
the row without a byte, `reset()` (log 9). -/
def tableRequest (nbits w : Nat) : Option Request :=
  if nbits = 8 then some (.dec (.consume (BitVec.ofNat 8 w)))
  else if nbits = 0 then some (.dec .reset)
  else none

/-- The operation the decoder reads from the bits of a table word (log 9). -/
def decodeTableWord (nbits w : Nat) : Option Instr :=
  match tableRequest nbits w with
  | some r => (decode (tableSelector (BitVec.ofNat 8 w)) r).toOption
  | none => none

end Sys2Proof
end

