-- ==== Sys2Proof/Machine/Operands.lean ====
section
/-! DEFINITION. What an operation takes: its selector (30_encoding R65), the byte an escape stands
for (R62), and the bytes an encoder operation emits (42_encoder R110). -/

namespace Sys2Proof.Machine

/-- The selector of the next decoder operation: `dstate`, and whether `dlen == 0` (30_encoding
R65). -/
def State.selector (s : State) : Selector := ⟨s.dstate, s.dlen == 0⟩

/-- `unesc`: the message byte an escape code stands for (30_encoding R62). -/
def unesc (c : Byte) : Option Byte :=
  if c = ESC_END then some END
  else if c = ESC_ESC then some ESC
  else none

/-- `esc(b)`: the escape of one message byte (42_encoder R110). -/
def esc (b : Byte) : List Byte :=
  if b = END then [ESC, ESC_END]
  else if b = ESC then [ESC, ESC_ESC]
  else [b]

/-- The bytes an encoder operation emits (42_encoder R114, R115, R116). -/
def emission : EncOp → List Byte
  | .sof => [END]
  | .byte b => esc b
  | .eof => [END]
  | .kind3 => []

/-- Whether an encoder operation is in protocol (42_encoder R114, R115, R116; 93 U8). -/
def State.inProtocol (s : State) : EncOp → Bool
  | .sof => !s.eopen
  | .byte _ => s.eopen
  | .eof => s.eopen
  | .kind3 => false

end Sys2Proof.Machine
end

