-- ==== Sys2Proof/Machine/Ops.lean ====
section
/-! DEFINITION. The named operations over the frame buffer and the state that the meanings are
made of. -/

namespace Sys2Proof.Machine

/-- `MemRead(i, 1)` (00_scope notation): the byte a cell holds, none if it is unspecified. -/
def Memory.read : Memory → Nat → Option Byte
  | [], _ => none
  | (k, v) :: m, a => if k = a then some v else Memory.read m a

/-- `MemWrite(i, 1, v)` (00_scope notation), keeping the addresses strictly rising. -/
def Memory.write : Memory → Nat → Byte → Memory
  | [], a, v => [(a, v)]
  | (k, w) :: m, a, v =>
    if a < k then (a, v) :: (k, w) :: m
    else if a = k then (a, v) :: m
    else (k, w) :: Memory.write m a v

/-- The canonical form: addresses strictly rising. (An unlisted cell reads as no byte, so no entry
can equal what an unlisted cell reads as.) -/
def Memory.wf : Memory → Bool
  | [] => true
  | [_] => true
  | (a, _) :: (b, w) :: m => decide (a < b) && Memory.wf ((b, w) :: m)

/-- Go on from a next state; keep a stop. -/
def andThen (o : Out) (k : State → Out) : Out :=
  match o with
  | .next s => k s
  | .fault f => .fault f
  | .refused r => .refused r

/-- Run a meaning where its row selects it (30_encoding R65, R66; log 6). -/
def whenSelected (c : Prop) [Decidable c] (o : Out) : Out :=
  if c then o else .refused .notSelected

/-- The window closes: `pvalid <- 0`, `plen` unchanged (10_state R27). -/
def State.closeWindow (s : State) : State := { s with pvalid := false }

/-- The window opens on the `dlen` bytes accumulated: `plen <- dlen; pvalid <- 1` (10_state R27). -/
def State.openWindow (s : State) : State := { s with pvalid := true, plen := s.dlen }

/-- "Clear buffer", "discard buffer": `dlen <- 0`, the cells keep their bytes (10_state R22). -/
def State.clearBuffer (s : State) : State := { s with dlen := 0 }

/-- `dstate <- d` (41_decoder R101). -/
def State.toDState (d : DState) (s : State) : State := { s with dstate := d }

/-- `dbuf[dlen] <- v; dlen <- dlen + 1` (41_decoder R92). -/
def State.store (v : Byte) (s : State) : State :=
  { s with dbuf := Memory.write s.dbuf s.dlen v, dlen := s.dlen + 1 }

/-- What an error signal does (60_exceptions R157; R95): `dlen <- 0`, `dstate <- Normal`,
`pvalid <- 0`, `result` *Incomplete* and the signal as output. Nothing is saved and control goes
nowhere, so there is no return operation beside it (60_exceptions R158). -/
def State.raiseSignal (g : Signal) (s : State) : State :=
  ((s.closeWindow.clearBuffer).toDState .normal).report .incomplete g

/-- `append(v)` (41_decoder R92, R93), with the outputs of the operation that asks for it. -/
def append (v : Byte) (s : State) : Out :=
  if s.dlen < s.maxFrame then
    .next (((s.closeWindow.store v).toDState .normal).report .incomplete .none)
  else if s.dlen = s.maxFrame then .next (s.raiseSignal .frameOverflow)
  else .fault (.noSuchCell s.dlen)

/-- `reset()` (41_decoder R96): no `result` and no `signal`. -/
def State.resetDecoder (s : State) : State :=
  { (s.closeWindow.clearBuffer).toDState .normal with lastOut := none }

/-- Hardware reset of the decoder: every cell unspecified again (10_state R33; log 2). -/
def State.hardResetDecoder (s : State) : State :=
  { s with dstate := .normal, dlen := 0, dbuf := [], pvalid := false, plen := 0, lastOut := none }

/-- Hardware reset of the encoder: `eopen <- 0`, the serialiser empty (20_memory R52, 70 R170). -/
def State.hardResetEncoder (s : State) : State := { s with eopen := false, held := none }

/-- Hardware reset of the block (70_reset_and_hazards R170). -/
def State.hardReset (s : State) : State := s.hardResetDecoder.hardResetEncoder

/-- `emit bs` (00_scope notation): append to the outbound stream. -/
def State.emit (bs : List Byte) (s : State) : State := { s with outbound := s.outbound ++ bs }

/-- `eopen <- v` (42_encoder R114, R116). -/
def State.setOpen (v : Bool) (s : State) : State := { s with eopen := v }

/-- The defined byte of a payload read: cell `i` while the window is open and `i < plen` (10_state
R28). -/
def State.payloadByte (s : State) (i : Nat) : Option Byte :=
  if s.pvalid && decide (i < s.plen) then Memory.read s.dbuf i else none

/-- A payload read: the defined byte where there is one, else a draw (10_state R28, 93 U4; log 3).
Only the model's record of reads and of draws changes. -/
def State.readPayload (i : Nat) (s : State) : State :=
  match s.payloadByte i with
  | some v => { s with reads := s.reads ++ [v] }
  | none => { s with reads := s.reads ++ [Config.freeByte s.draws], draws := s.draws + 1 }

/-- The whole payload while the window is open (10_state R28): none if the window is closed or a
cell of it is unspecified. -/
def State.payload (s : State) : Option (List Byte) :=
  if s.pvalid then (List.range s.plen).mapM (Memory.read s.dbuf) else none

end Sys2Proof.Machine
end

