-- ==== Sys2Proof/Machine/Decoder.lean ====
section
/-! DEFINITION. The decoder's operations (41_decoder R86 to R91, R94, R96): one meaning each. -/

namespace Sys2Proof.Machine

/-- `DEC.END_EMPTY` (R86). -/
def execDecEndEmpty (s : State) : Out :=
  whenSelected (s.dstate = .normal ∧ s.dlen = 0)
    (.next ((s.closeWindow.toDState .normal).report .incomplete .none))

/-- `DEC.END_FRAME` (R87). -/
def execDecEndFrame (s : State) : Out :=
  whenSelected (s.dstate = .normal ∧ s.dlen ≠ 0)
    (.next (((s.openWindow.clearBuffer).toDState .normal).report (.frameComplete s.dlen) .none))

/-- `DEC.ESC` (R88): no byte appended yet, no overflow check. -/
def execDecEsc (s : State) : Out :=
  whenSelected (s.dstate = .normal)
    (.next ((s.closeWindow.toDState .escaping).report .incomplete .none))

/-- `DEC.LIT` (R89): `append(b)`. -/
def execDecLit (b : Byte) (s : State) : Out :=
  whenSelected (s.dstate = .normal ∧ (Instr.decLit b).wf) (append b s)

/-- `DEC.ESC_END` (R90): `append(END)`. -/
def execDecEscEnd (s : State) : Out :=
  whenSelected (s.dstate = .escaping) (append END s)

/-- `DEC.ESC_ESC` (R94): `append(ESC)`. -/
def execDecEscEsc (s : State) : Out :=
  whenSelected (s.dstate = .escaping) (append ESC s)

/-- `DEC.BAD_ESC` (R91): the byte is dropped, no append is attempted. -/
def execDecBadEsc (b : Byte) (s : State) : Out :=
  whenSelected (s.dstate = .escaping ∧ (Instr.decBadEsc b).wf)
    (.next (s.raiseSignal .invalidEscapeSequence))

/-- `DEC.RESET` (R96): defined in every state. -/
def execDecReset (s : State) : Out := .next s.resetDecoder

end Sys2Proof.Machine
end

