-- ==== Sys2Proof/Machine/Encoder.lean ====
section
/-! DEFINITION. The encoder: the whole-message function (42_encoder R112) and the stream operations
(R114 to R116), one meaning each. -/

namespace Sys2Proof.Machine

/-- `encode(M)` (42_encoder R112): `END`, every byte escaped in order, `END`. -/
def encodeMessage (m : List Byte) : List Byte := [END] ++ m.flatMap esc ++ [END]

/-- `if eopen == 0: refuse; else: emit bs` (42_encoder R115). -/
def emitOpen (bs : List Byte) (s : State) : Out :=
  if s.eopen then .next (s.emit bs) else .refused .noMessageOpen

/-- `ENC.SOF` (R114). -/
def execEncSof (s : State) : Out :=
  if s.eopen then .refused .messageAlreadyOpen else .next ((s.emit [END]).setOpen true)

/-- `ENC.BYTE.END` (R115). -/
def execEncByteEnd (s : State) : Out := emitOpen (esc END) s

/-- `ENC.BYTE.ESC` (R115). -/
def execEncByteEsc (s : State) : Out := emitOpen (esc ESC) s

/-- `ENC.BYTE.LIT` (R115). -/
def execEncByteLit (b : Byte) (s : State) : Out :=
  whenSelected (Instr.encByteLit b).wf (emitOpen (esc b) s)

/-- `ENC.EOF` (R116). -/
def execEncEof (s : State) : Out :=
  if s.eopen then .next ((s.emit [END]).setOpen false) else .refused .noMessageOpen

end Sys2Proof.Machine
end

