-- ==== Sys2Proof/Machine/Dispatch.lean ====
section
/-! DEFINITION. The meaning of every operation of spec/opcode_table.json. -/

namespace Sys2Proof.Machine

def exec (i : Instr) (s : State) : Host.Outcome State Fault Refusal :=
  match i with
  | .decEndEmpty => Sys2Proof.Machine.execDecEndEmpty s
  | .decEndFrame => Sys2Proof.Machine.execDecEndFrame s
  | .decEsc => Sys2Proof.Machine.execDecEsc s
  | .decLit b => Sys2Proof.Machine.execDecLit b s
  | .decEscEnd => Sys2Proof.Machine.execDecEscEnd s
  | .decEscEsc => Sys2Proof.Machine.execDecEscEsc s
  | .decBadEsc b => Sys2Proof.Machine.execDecBadEsc b s
  | .decReset => Sys2Proof.Machine.execDecReset s
  | .encSof => Sys2Proof.Machine.execEncSof s
  | .encByteEnd => Sys2Proof.Machine.execEncByteEnd s
  | .encByteEsc => Sys2Proof.Machine.execEncByteEsc s
  | .encByteLit b => Sys2Proof.Machine.execEncByteLit b s
  | .encEof => Sys2Proof.Machine.execEncEof s

end Sys2Proof.Machine
end

