-- ==== Sys2Proof/Machine/Perform.lean ====
section
/-! DEFINITION. Performing requests: one, or a list of them in order (41_decoder R85, R98;
20_memory R46), and the events a byte sequence gives (43_stream_properties R130). -/

namespace Sys2Proof.Machine

/-- Select the operation a request names in this state, and run it. -/
def perform (r : Request) (s : State) : Out :=
  match decode s.selector r with
  | .ok i => exec i s
  | .error .reservedOpKind => .refused .reservedOpKind

/-- `consume(b)` (41_decoder R85). -/
def consume (b : Byte) (s : State) : Out := perform (.dec (.consume b)) s

/-- Requests performed one after another, each from the state the one before left (20_memory R46). -/
def performAll : List Request → State → Out
  | [], s => .next s
  | r :: rs, s => andThen (perform r s) (performAll rs)

/-- `consume_seq` (41_decoder R98); its output is what `outputs` gains. -/
def consumeSeq (bs : List Byte) (s : State) : Out :=
  performAll (bs.map fun b => .dec (.consume b)) s

/-- `sof; byte b0; ...; byte bk; eof` (30_encoding R72, 42_encoder R117). -/
def streamForm (m : List Byte) : List Request :=
  [.enc .sof] ++ m.map (fun b => .enc (.byte b)) ++ [.enc .eof]

/-- An event (43_stream_properties R130). The payload is none where the window holds an unspecified
cell, which no reachable state does (10_state R34). -/
inductive Event where
  | frame (payload : Option (List Byte))
  | overflow
  | invalidEscape
  deriving DecidableEq, Repr

/-- The event of the `consume` that left this state, if it gave one (43_stream_properties R130). -/
def State.event (s : State) : List Event :=
  match s.lastOut with
  | some ⟨.frameComplete _, _⟩ => [.frame s.payload]
  | some ⟨.incomplete, .frameOverflow⟩ => [.overflow]
  | some ⟨.incomplete, .invalidEscapeSequence⟩ => [.invalidEscape]
  | some ⟨.incomplete, .none⟩ => []
  | none => []

/-- `events(S)` from a start state (43_stream_properties R130). -/
def events : List Byte → State → List Event
  | [], _ => []
  | b :: bs, s =>
    match consume b s with
    | .next t => t.event ++ events bs t
    | .fault _ => []
    | .refused _ => []

end Sys2Proof.Machine
end

