-- ==== Sys2Proof/Machine/Ports.lean ====
section
/-! DEFINITION. The port-level realisation (20_memory R50 to R52, 42_encoder R121): what one rising
edge of `clk` does. It performs operations through the same `perform` as everything else. -/

namespace Sys2Proof.Machine

/-- The decoder at an edge without `rst`, `clr` before `in_valid` (20_memory R51). -/
def decEdge (p : DecPins) (s : State) : Out :=
  if p.clr then perform (.dec .reset) s
  else if p.inValid then perform (.dec (.consume p.inByte)) s
  else .next { s with lastOut := none }

/-- The operation the encoder's pins present, where they present one. -/
def presentedOp (p : EncPins) : Option EncOp :=
  if p.opValid then some (decodeOpKind p.opKind p.opByte) else none

/-- The byte on `out_byte`, where `out_valid` is 1: the held byte first, else the first byte of the
operation presented (42_encoder R121; log 14). `rst` does not gate it: the spec does not say what the
pin shows at such an edge, and this is the model's choice (log 24). -/
def State.nextOutByte (p : EncPins) (s : State) : Option Byte :=
  match s.held with
  | some h => some h
  | none =>
    match presentedOp p with
    | some o => if s.inProtocol o then (emission o).head? else none
    | none => none

/-- The held byte goes out and the pending bit clears (42_encoder R121). -/
def State.sendHeld (h : Byte) (s : State) : State :=
  { s with sent := s.sent ++ [h], held := none }

/-- The first byte of an emission goes out, the second, if any, is held (42_encoder R121). -/
def State.sendFirst (bs : List Byte) (s : State) : State :=
  { s with sent := s.sent ++ bs.take 1, held := (bs.drop 1).head? }

/-- The encoder at an edge without `rst` (42_encoder R121; log 14): a byte moves only where
`out_ready` is 1, and no operation is accepted while a byte is held. -/
def encEdge (p : EncPins) (s : State) : Out :=
  if p.outReady then
    match s.held with
    | some h => .next (s.sendHeld h)
    | none =>
      match presentedOp p with
      | some o => andThen (perform (.enc o) s) fun t => .next (t.sendFirst (emission o))
      | none => .next s
  else .next s

/-- The output pins at an edge, before it changes anything (20_memory R50, R52; log 15). A pin the
spec leaves unspecified shows a free byte. -/
def State.portSample (d : DecPins) (e : EncPins) (s : State) : PortSample where
  inReady := true
  resKind := s.resKind
  resLen := s.resLen
  signal := s.signalPort
  rdByte := (s.payloadByte d.rdIdx).getD (Config.freeByte s.draws)
  payValid := s.pvalid
  payLen := s.plen
  opReady := s.held.isNone
  outValid := (s.nextOutByte e).isSome
  outByte := (s.nextOutByte e).getD (Config.freeByte (s.draws + 1))

/-- Record the output pins, and leave the next edge fresh draws (log 15). -/
def State.sample (d : DecPins) (e : EncPins) (s : State) : State :=
  { s with samples := s.samples ++ [s.portSample d e], draws := s.draws + 2 }

/-- One rising edge. `rst` goes before everything: it brings every element of 10_state R33 and the
serialiser to its reset value (20_memory R50 to R52, 70 R170), and what the other pins present is
neither consumed, performed nor sent (log 24). Else decoder and encoder each act on the state before
the edge; they share none of it (20_memory R51, R52). An operation that is refused refuses the whole
edge (log 22). -/
def clockEdge (rst : Bool) (d : DecPins) (e : EncPins) (s : State) : Out :=
  if rst then .next (s.sample d e).hardReset
  else andThen (decEdge d (s.sample d e)) (encEdge e)

end Sys2Proof.Machine
end

