-- ==== Sys2Proof/Machine/Inputs.lean ====
section
/-! DEFINITION. What each thing a host does makes the machine do (70_reset_and_hazards R175), and
how a table word is put before it. -/

namespace Sys2Proof.Machine

/-- Take one input. -/
def takeInput (x : Input) (s : State) : Out :=
  match x with
  | .op r => perform r s
  | .encode m => .next (s.emit (encodeMessage m))
  | .read i => .next (s.readPayload i)
  | .hardReset => .next s.hardReset
  | .overlap _ _ => .refused .overlappingCalls
  | .edge rst d e => clockEdge rst d e s

/-- `s` with an input at the front of the queue. -/
def State.withInput (x : Input) (s : State) : State := { s with inbox := x :: s.inbox }

/-- `feed b0 ... bk` as inputs (30_encoding R72). -/
def feed (bs : List Byte) : List Input := bs.map fun b => .op (.dec (.consume b))

/-- `s` about to take the request of a table word, in the selector that word is read under (log 9).
Bits the table does not give a meaning are put as `op_kind == 3`, which is refused. -/
def placeTableWord (s : State) (nbits w : Nat) : State :=
  match tableRequest nbits w with
  | some (.dec (.consume b)) =>
    { s.withInput (.op (.dec (.consume b))) with
      dstate := (tableSelector b).dstate
      dlen := if b = END then 0 else s.dlen }
  | some r => s.withInput (.op r)
  | none => s.withInput (.op (.enc .kind3))

end Sys2Proof.Machine
end

