-- ==== Sys2Proof/Machine/Step.lean ====
section
/-! DEFINITION. One step: the machine takes the oldest pending input. -/

namespace Sys2Proof.Machine

/-- Take the oldest input, which is removed (20_memory R44, R46). With none pending the state is
held unchanged (60_exceptions R165; log 8). -/
def step (s : State) : Host.Outcome State Fault Refusal :=
  match s.inbox with
  | [] => .next s
  | x :: rest => takeInput x { s with inbox := rest }

/-- `s` about to run the operation of a table word (log 9). -/
def State.withFetchWord (s : State) (nbits w : Nat) : State := placeTableWord s nbits w

end Sys2Proof.Machine
end

