-- ==== Sys2Proof/Machine/Instances.lean ====
section
/-! DEFINITION. Several instances (60_exceptions R163, 10_state R26): each is a machine of its own
with its own reset and its own inputs, and a step is a step of one of them (log 18). -/

namespace Sys2Proof.Machine

/-- Instance `k` takes one step; the others do not. Where there is no instance `k`, nothing does. -/
def stepInstance (k : Nat) (ms : List State) : Host.Outcome (List State) Fault Refusal :=
  match ms[k]? with
  | none => .next ms
  | some s =>
    match step s with
    | .next t => .next (ms.set k t)
    | .fault f => .fault f
    | .refused r => .refused r

end Sys2Proof.Machine
end

