-- ==== Sys2Proof/Machine/Pseudocode.lean ====
section
/-! DEFINITION. The pseudocode of 41_decoder R85 transcribed whole, as one function of state and
byte, beside the operation map and the meanings: the two are to agree. -/

namespace Sys2Proof.Machine

/-- `append(v)` of R85, on the state before the operation. The third case, which the pseudocode
does not have, is the store outside the buffer (log 7). -/
def appendPseudo (v : Byte) (s : State) : Out :=
  if s.dlen = s.maxFrame then
    .next { s with
      pvalid := false, dlen := 0, dstate := .normal
      lastOut := some ⟨.incomplete, .frameOverflow⟩
      outputs := s.outputs ++ [⟨.incomplete, .frameOverflow⟩] }
  else if s.maxFrame < s.dlen then .fault (.noSuchCell s.dlen)
  else
    .next { s with
      pvalid := false, dbuf := Memory.write s.dbuf s.dlen v, dlen := s.dlen + 1, dstate := .normal
      lastOut := some ⟨.incomplete, .none⟩
      outputs := s.outputs ++ [⟨.incomplete, .none⟩] }

/-- `consume(b)` of R85. -/
def consumePseudo (b : Byte) (s : State) : Out :=
  if s.dstate = .normal then
    if b = END then
      if s.dlen = 0 then
        .next { s with
          pvalid := false, dstate := .normal
          lastOut := some ⟨.incomplete, .none⟩
          outputs := s.outputs ++ [⟨.incomplete, .none⟩] }
      else
        .next { s with
          pvalid := true, plen := s.dlen, dlen := 0, dstate := .normal
          lastOut := some ⟨.frameComplete s.dlen, .none⟩
          outputs := s.outputs ++ [⟨.frameComplete s.dlen, .none⟩] }
    else if b = ESC then
      .next { s with
        pvalid := false, dstate := .escaping
        lastOut := some ⟨.incomplete, .none⟩
        outputs := s.outputs ++ [⟨.incomplete, .none⟩] }
    else appendPseudo b s
  else
    if b = ESC_END then appendPseudo END s
    else if b = ESC_ESC then appendPseudo ESC s
    else
      .next { s with
        pvalid := false, dlen := 0, dstate := .normal
        lastOut := some ⟨.incomplete, .invalidEscapeSequence⟩
        outputs := s.outputs ++ [⟨.incomplete, .invalidEscapeSequence⟩] }

end Sys2Proof.Machine
end

