-- ==== Sys2Proof/Safety.lean ====
section
/-! DEFINITION. What counts as a sound state and a safe step, and when two states are the same to a
host (10_state R34, R35; 41_decoder R97). -/

namespace Sys2Proof.Machine

/-- Every cell below `n` holds a specified byte. -/
abbrev State.CellsWritten (s : State) (n : Nat) : Prop :=
  ∀ i < n, (Memory.read s.dbuf i).isSome = true

/-- The buffer: canonical, and inside `0 .. MAX_FRAME-1` (10_state R24, 20_memory R41). -/
abbrev State.BufferOk (s : State) : Prop :=
  Memory.wf s.dbuf = true ∧ ∀ c ∈ s.dbuf, c.1 < s.maxFrame

/-- (a) and (b) of 10_state R34: the counter is bounded and the live cells are written. -/
abbrev State.CounterOk (s : State) : Prop :=
  s.dlen ≤ s.maxFrame ∧ s.CellsWritten s.dlen

/-- (c) of 10_state R34: what an open window implies. -/
abbrev State.WindowOk (s : State) : Prop :=
  s.pvalid = true →
    s.dlen = 0 ∧ s.dstate = .normal ∧ 1 ≤ s.plen ∧ s.plen ≤ s.maxFrame ∧ s.CellsWritten s.plen

/-- Outputs an operation can give: a *FrameComplete* carries 1 to `MAX_FRAME` and no signal
(10_state R29, R30; 60_exceptions R156). -/
def decOutOk (maxFrame : Nat) (o : DecOut) : Bool :=
  match o.result with
  | .incomplete => true
  | .frameComplete n => decide (1 ≤ n) && decide (n ≤ maxFrame) && o.signal == .none

/-- The outputs shown and recorded are such outputs. -/
abbrev State.OutputsOk (s : State) : Prop :=
  (∀ o ∈ s.lastOut.toList, decOutOk s.maxFrame o = true) ∧
    ∀ o ∈ s.outputs, decOutOk s.maxFrame o = true

/-- A held byte is the second half of an escape (42_encoder R121). -/
abbrev State.HeldOk (s : State) : Prop :=
  ∀ h ∈ s.held.toList, h = ESC_END ∨ h = ESC_ESC

/-- The invariant of reachable states (10_state R34; 43_stream_properties R131). -/
abbrev State.Inv (s : State) : Prop :=
  1 ≤ s.maxFrame ∧ s.BufferOk ∧ s.CounterOk ∧ s.plen ≤ s.maxFrame ∧ s.WindowOk ∧ s.OutputsOk ∧
    s.HeldOk

/-- A step that does not fault. -/
def SafeStep (s : State) : Prop := ∀ f, step s ≠ .fault f

/-- Two states that agree on everything a decoder operation or a payload read may depend on: stale
cells, and `plen` while the window is closed, may differ (10_state R35, 41_decoder R97). -/
def SameToDecoder (s t : State) : Prop :=
  s.maxFrame = t.maxFrame ∧ s.dstate = t.dstate ∧ s.dlen = t.dlen ∧ s.pvalid = t.pvalid ∧
    (∀ i < s.dlen, Memory.read s.dbuf i = Memory.read t.dbuf i) ∧
    (s.pvalid = true → s.plen = t.plen ∧ ∀ i < s.plen, Memory.read s.dbuf i = Memory.read t.dbuf i)

/-- Nothing of the encoder, and nothing it emitted or sent, differs (10_state R20, R31). -/
def SameEncoder (s t : State) : Prop :=
  t.eopen = s.eopen ∧ t.held = s.held ∧ t.outbound = s.outbound ∧ t.sent = s.sent

/-- Nothing of the decoder, and nothing it reported, differs (10_state R20). -/
def SameDecoder (s t : State) : Prop :=
  t.dstate = s.dstate ∧ t.dlen = s.dlen ∧ t.dbuf = s.dbuf ∧ t.pvalid = s.pvalid ∧
    t.plen = s.plen ∧ t.lastOut = s.lastOut ∧ t.outputs = s.outputs

/-- Neither the configuration nor the rest of the hosts' side differs (10_state R32). -/
def SameHost (s t : State) : Prop :=
  t.maxFrame = s.maxFrame ∧ t.inbox = s.inbox ∧ t.reads = s.reads ∧ t.samples = s.samples ∧
    t.draws = s.draws

/-- The bytes accumulated for the frame in progress, `dbuf[0 .. dlen-1]` (10_state R22). -/
def State.accumulated (s : State) : Option (List Byte) :=
  (List.range s.dlen).mapM (Memory.read s.dbuf)

/-- What a leading `END` makes of a start state (43_stream_properties R133). -/
def State.leadingEvents (s : State) : List Event :=
  if s.dstate = .escaping then [.invalidEscape]
  else if s.dlen = 0 then []
  else [.frame s.accumulated]

/-- The operation the encoder is to perform at an edge without `rst`: the one presented, where the
transport takes a byte and none is held (42_encoder R121; log 14). -/
def State.askedAtEdge (p : EncPins) (s : State) : Option EncOp :=
  if p.outReady && s.held.isNone then presentedOp p else none

/-- An input asks the encoder for an operation: by request, or at an edge (20_memory R52). -/
def State.AskedBy (s : State) (x : Input) (o : EncOp) : Prop :=
  x = .op (.enc o) ∨ ∃ d e, x = .edge false d e ∧ s.askedAtEdge e = some o

/-- Chunks consumed one after another (20_memory R54). -/
def consumeChunks (chunks : List (List Byte)) (s : State) : Out :=
  chunks.foldl (fun o c => andThen o (consumeSeq c)) (.next s)

/-- A fresh decoder: `Normal`, `dlen` 0 (43_stream_properties R130). -/
abbrev State.Fresh (s : State) : Prop := s.dstate = .normal ∧ s.dlen = 0

end Sys2Proof.Machine
end

