-- ==== Sys2Proof/Certificates/Slice0/Obligations.lean ====
section
/-! DEFINITION. The statements for the provers. Every rule is named by its file of spec/ and its
number; what rests on a decision of the spec (D<n>) or of the model (log <n>) says so. -/

open Sys2Proof Sys2Proof.Machine

/-! ### The operation map and the constants -/

/-- The rows of 30_encoding R65, R66 and R70, written as bytes: what each selects. -/
def Obligations.WrittenOutBytesDecode : Prop :=
  decode ⟨.normal, true⟩ (.dec (.consume 0xC0#8)) = .ok .decEndEmpty ∧
  decode ⟨.normal, false⟩ (.dec (.consume 0xC0#8)) = .ok .decEndFrame ∧
  decode ⟨.normal, false⟩ (.dec (.consume 0xDB#8)) = .ok .decEsc ∧
  decode ⟨.normal, true⟩ (.dec (.consume 0xDC#8)) = .ok (.decLit 0xDC#8) ∧
  decode ⟨.escaping, true⟩ (.dec (.consume 0xDC#8)) = .ok .decEscEnd ∧
  decode ⟨.escaping, true⟩ (.dec (.consume 0xDD#8)) = .ok .decEscEsc ∧
  decode ⟨.escaping, false⟩ (.dec (.consume 0xC0#8)) = .ok (.decBadEsc 0xC0#8) ∧
  decode ⟨.escaping, false⟩ (.dec (.consume 0xDB#8)) = .ok (.decBadEsc 0xDB#8) ∧
  decode ⟨.normal, true⟩ (.enc (decodeOpKind 0#2 0xC0#8)) = .ok .encSof ∧
  decode ⟨.normal, true⟩ (.enc (decodeOpKind 1#2 0xC0#8)) = .ok .encByteEnd ∧
  decode ⟨.normal, true⟩ (.enc (decodeOpKind 1#2 0xDB#8)) = .ok .encByteEsc ∧
  decode ⟨.normal, true⟩ (.enc (decodeOpKind 1#2 0xDD#8)) = .ok (.encByteLit 0xDD#8) ∧
  decode ⟨.normal, true⟩ (.enc (decodeOpKind 2#2 0xC0#8)) = .ok .encEof

/-- Decoding the request of a well-formed operation gives the operation back, under every selector
that meets its row; and a request that decodes is the request of what it decodes to (30_encoding
R65, R66). -/
def Obligations.DecodeAndEncodeAgree : Prop :=
  (∀ (i : Instr) (c : Selector), i.wf = true → decode (i.selectorIn c) (encode i) = .ok i) ∧
  (∀ (i : Instr) (c : Selector) (r : Request), decode c r = .ok i →
    i.wf = true ∧ encode i = r ∧ i.selectorIn c = c)

/-- 30_encoding R65: decoding is the table of rows, and the rows of `consume` cover every pair of a
state and a byte exactly once. -/
def Obligations.OperationMapCoversEachByteOnce : Prop :=
  (∀ (c : Selector) (r : Request) (i : Instr),
    decode c r = .ok i ↔ i.wf = true ∧ encode i = r ∧ i.row.takes c r = true) ∧
  (∀ (c : Selector) (b : Byte), ∃ i : Instr,
    (i.wf = true ∧ encode i = .dec (.consume b) ∧ i.row.takes c (.dec (.consume b)) = true) ∧
    ∀ j : Instr,
      j.wf = true ∧ encode j = .dec (.consume b) ∧ j.row.takes c (.dec (.consume b)) = true → j = i)

/-- 30_encoding R70, 93 U8: a request is rejected exactly where its `op_kind` is 3, and the coding
of `op_kind` loses nothing. -/
def Obligations.OnlyReservedOpKindIsRejected : Prop :=
  (∀ (c : Selector) (r : Request), (∃ e, decode c r = .error e) ↔ r = .enc .kind3) ∧
  (∀ (k : BitVec 2) (b : Byte), encodeOpKind (decodeOpKind k b) = k) ∧
  (∀ (o : EncOp) (b : Byte), (∀ x, o = .byte x → x = b) → decodeOpKind (encodeOpKind o) b = o)

/-- 42_encoder R110 and R111 (a) to (d): the escapes, their lengths, and that a concatenation of
escapes splits in one way only. -/
def Obligations.EscapesSplitInOneWay : Prop :=
  esc 0xC0#8 = [0xDB#8, 0xDC#8] ∧ esc 0xDB#8 = [0xDB#8, 0xDD#8] ∧
  (∀ b : Byte, b ≠ 0xC0#8 → b ≠ 0xDB#8 → esc b = [b]) ∧
  (∀ b : Byte, (esc b).length = if b = 0xC0#8 ∨ b = 0xDB#8 then 2 else 1) ∧
  (∀ b : Byte, END ∉ esc b) ∧
  (∀ b c : Byte, esc b <+: esc c → b = c) ∧
  (∀ m n : List Byte, m.flatMap esc = n.flatMap esc → m = n)

/-! ### A step -/

/-- A step on a pending request runs the operation the request decodes to, with the request taken
from the queue (20_memory R44, R46). -/
def Obligations.StepRunsDecodedOperation : Prop :=
  ∀ (s : State) (r : Request) (rest : List Input) (i : Instr),
    s.inbox = .op r :: rest → decode s.selector r = .ok i →
      step s = exec i { s with inbox := rest }

/-- With nothing pending the state is held (60_exceptions R165; the model's reading, log 8). -/
def Obligations.IdleStepHoldsTheState : Prop :=
  ∀ s : State, s.inbox = [] → step s = .next s

/-- What the spec asks a model to refuse at the host interface: `op_kind == 3` (93 U8) and
overlapping calls (20_memory R47). -/
def Obligations.HostErrorsAreRefused : Prop :=
  (∀ (s : State) (rest : List Input), s.inbox = .op (.enc .kind3) :: rest →
    step s = .refused .reservedOpKind) ∧
  (∀ (s : State) (c1 c2 : DecCall) (rest : List Input), s.inbox = .overlap c1 c2 :: rest →
    step s = .refused .overlappingCalls)

/-- 42_encoder R112: `encode(M)` on a whole message emits `END`, every escape in order, `END`, and
changes nothing else. That it is taken whatever `eopen` is, and does not pass the serialiser, is the
model's reading (log 13; R113, R120, 10_state R31). -/
def Obligations.WholeMessageIsEncoded : Prop :=
  ∀ (s : State) (m : List Byte) (rest : List Input), s.inbox = .encode m :: rest →
    step s = .next { s with
      inbox := rest, outbound := s.outbound ++ ([0xC0#8] ++ m.flatMap esc ++ [0xC0#8]) }

/-! ### The result of each operation -/

/-- 41_decoder R86: an `END` on an empty buffer is ignored; it closes the window (D5). -/
def Obligations.EndOnEmptyBufferIsIgnored : Prop :=
  ∀ s : State, s.dstate = .normal → s.dlen = 0 →
    exec .decEndEmpty s = .next { s with
      pvalid := false
      lastOut := some ⟨.incomplete, .none⟩
      outputs := s.outputs ++ [⟨.incomplete, .none⟩] }

/-- 41_decoder R87: an `END` on a buffer that is not empty completes the frame; no cell is
erased (D4, D5). -/
def Obligations.EndCompletesTheFrame : Prop :=
  ∀ s : State, s.dstate = .normal → s.dlen ≠ 0 →
    exec .decEndFrame s = .next { s with
      pvalid := true, plen := s.dlen, dlen := 0
      lastOut := some ⟨.frameComplete s.dlen, .none⟩
      outputs := s.outputs ++ [⟨.frameComplete s.dlen, .none⟩] }

/-- 41_decoder R88: `ESC` in `Normal` enters `Escaping`, whatever `dlen`; it closes the window
(D5). -/
def Obligations.EscEntersEscaping : Prop :=
  ∀ s : State, s.dstate = .normal →
    exec .decEsc s = .next { s with
      pvalid := false, dstate := .escaping
      lastOut := some ⟨.incomplete, .none⟩
      outputs := s.outputs ++ [⟨.incomplete, .none⟩] }

/-- 41_decoder R89, R92: a literal that fits is stored at cell `dlen` and counted; every other cell
reads as before, and nothing else changes but the window (D5). -/
def Obligations.LiteralIsAppended : Prop :=
  ∀ (s : State) (b : Byte), s.dstate = .normal → b ≠ END → b ≠ ESC → s.dlen < s.maxFrame →
    ∃ t, exec (.decLit b) s = .next t ∧
      t = { s with
        pvalid := false, dlen := s.dlen + 1, dbuf := t.dbuf
        lastOut := some ⟨.incomplete, .none⟩
        outputs := s.outputs ++ [⟨.incomplete, .none⟩] } ∧
      ∀ a, Memory.read t.dbuf a = if a = s.dlen then some b else Memory.read s.dbuf a

/-- 41_decoder R90, R94, R92: a decoded escape that fits stores the byte it stands for, 0xC0 or
0xDB, at cell `dlen` and returns to `Normal`; every other cell reads as before. -/
def Obligations.EscapedByteIsAppended : Prop :=
  ∀ s : State, s.dstate = .escaping → s.dlen < s.maxFrame →
    ∀ (i : Instr) (v : Byte), (i = .decEscEnd ∧ v = 0xC0#8) ∨ (i = .decEscEsc ∧ v = 0xDB#8) →
      ∃ t, exec i s = .next t ∧
        t = { s with
          pvalid := false, dstate := .normal, dlen := s.dlen + 1, dbuf := t.dbuf
          lastOut := some ⟨.incomplete, .none⟩
          outputs := s.outputs ++ [⟨.incomplete, .none⟩] } ∧
        ∀ a, Memory.read t.dbuf a = if a = s.dlen then some v else Memory.read s.dbuf a

/-- 41_decoder R93: any of the three appends on a full buffer discards the buffer and the byte,
raises `FrameOverflow`, and goes to `Normal` with no cell written (D8, D9, D4, D5). -/
def Obligations.AppendOnFullBufferOverflows : Prop :=
  ∀ (s : State) (i : Instr), s.dlen = s.maxFrame →
    (s.dstate = .normal ∧ ∃ b, i = .decLit b ∧ b ≠ END ∧ b ≠ ESC) ∨
      (s.dstate = .escaping ∧ (i = .decEscEnd ∨ i = .decEscEsc)) →
    exec i s = .next { s with
      pvalid := false, dstate := .normal, dlen := 0
      lastOut := some ⟨.incomplete, .frameOverflow⟩
      outputs := s.outputs ++ [⟨.incomplete, .frameOverflow⟩] }

/-- 41_decoder R91: any other byte in `Escaping` discards the buffer and the byte and raises
`InvalidEscapeSequence`, whatever `dlen` (D4, D5; 93 U1, log 19). -/
def Obligations.BadEscapeDiscardsTheFrame : Prop :=
  ∀ (s : State) (b : Byte), s.dstate = .escaping → b ≠ ESC_END → b ≠ ESC_ESC →
    exec (.decBadEsc b) s = .next { s with
      pvalid := false, dstate := .normal, dlen := 0
      lastOut := some ⟨.incomplete, .invalidEscapeSequence⟩
      outputs := s.outputs ++ [⟨.incomplete, .invalidEscapeSequence⟩] }

/-- 41_decoder R96: `reset()` in every state, with no result and no signal (D11, D12). -/
def Obligations.ResetOperationClearsTheDecoder : Prop :=
  ∀ s : State,
    exec .decReset s = .next { s with
      pvalid := false, dstate := .normal, dlen := 0, lastOut := none }

/-- 42_encoder R114: start of a message (D15, D26). -/
def Obligations.SofOpensAMessage : Prop :=
  ∀ s : State, s.eopen = false →
    exec .encSof s = .next { s with eopen := true, outbound := s.outbound ++ [0xC0#8] }

/-- 42_encoder R115: one message byte, in its three cases (D15). -/
def Obligations.MessageByteIsEscaped : Prop :=
  ∀ s : State, s.eopen = true →
    exec .encByteEnd s = .next { s with outbound := s.outbound ++ [0xDB#8, 0xDC#8] } ∧
    exec .encByteEsc s = .next { s with outbound := s.outbound ++ [0xDB#8, 0xDD#8] } ∧
    ∀ b : Byte, b ≠ END → b ≠ ESC →
      exec (.encByteLit b) s = .next { s with outbound := s.outbound ++ [b] }

/-- 42_encoder R116: end of a message (D15). -/
def Obligations.EofClosesTheMessage : Prop :=
  ∀ s : State, s.eopen = true →
    exec .encEof s = .next { s with eopen := false, outbound := s.outbound ++ [0xC0#8] }

/-- 42_encoder R114 to R116, 93 U8: encoder operations out of protocol are refused (D15, D26). -/
def Obligations.EncoderOutOfProtocolIsRefused : Prop :=
  (∀ s : State, s.eopen = true → exec .encSof s = .refused .messageAlreadyOpen) ∧
  (∀ s : State, s.eopen = false →
    exec .encByteEnd s = .refused .noMessageOpen ∧ exec .encByteEsc s = .refused .noMessageOpen ∧
    exec .encEof s = .refused .noMessageOpen ∧
    ∀ b : Byte, b ≠ END → b ≠ ESC → exec (.encByteLit b) s = .refused .noMessageOpen)

/-- The model's choice (log 6): a meaning named where its row does not select it is refused. -/
def Obligations.UnselectedOperationIsRefused : Prop :=
  ∀ (i : Instr) (s : State), (i.wf && i.row.takes s.selector (encode i)) = false →
    exec i s = .refused .notSelected

/-! ### The decoder as a whole -/

/-- 41_decoder R85: selecting and running an operation is the pseudocode of `consume(b)`. -/
def Obligations.ConsumeIsItsPseudocode : Prop :=
  ∀ (b : Byte) (s : State), consume b s = consumePseudo b s

/-- 41_decoder R85, R99: with `dlen <= MAX_FRAME` every byte is taken and the decoder can take the
next. -/
def Obligations.DecoderTakesEveryByte : Prop :=
  ∀ (bs : List Byte) (s : State), s.dlen ≤ s.maxFrame →
    ∃ t, consumeSeq bs s = .next t ∧ t.dlen ≤ t.maxFrame ∧ t.maxFrame = s.maxFrame ∧
      t.outputs.length = s.outputs.length + bs.length

/-- 41_decoder R101. -/
def Obligations.EscapingOnlyAfterEscInNormal : Prop :=
  (∀ (s t : State) (b : Byte), consume b s = .next t →
    (t.dstate = .escaping ↔ s.dstate = .normal ∧ b = ESC) ∧
    (t.dstate = .normal ↔ ¬(s.dstate = .normal ∧ b = ESC))) ∧
  (∀ (s t u : State) (b c : Byte), consume b s = .next t → consume c t = .next u →
    ¬(t.dstate = .escaping ∧ u.dstate = .escaping)) ∧
  (∀ (s t : State) (i : Instr), exec i s = .next t → s.dstate = .normal → t.dstate = .escaping →
    i = .decEsc) ∧
  (∀ s : State, ∃ t, exec .decReset s = .next t ∧ t.dstate = .normal)

/-- 60_exceptions R151 and R153: exactly when each signal is raised. -/
def Obligations.SignalsAreRaisedExactly : Prop :=
  ∀ (s : State) (b : Byte), s.dlen ≤ s.maxFrame → ∃ t o, consume b s = .next t ∧
    t.lastOut = some o ∧
    (o.signal = .frameOverflow ↔ s.dlen = s.maxFrame ∧
      ((s.dstate = .normal ∧ b ≠ 0xC0#8 ∧ b ≠ 0xDB#8) ∨
        (s.dstate = .escaping ∧ (b = 0xDC#8 ∨ b = 0xDD#8)))) ∧
    (o.signal = .invalidEscapeSequence ↔
      s.dstate = .escaping ∧ b ≠ 0xDC#8 ∧ b ≠ 0xDD#8)

/-- 41_decoder R95: what the two error cases have in common. -/
def Obligations.ErrorsClearAndGoOn : Prop :=
  ∀ (s t : State) (b : Byte) (o : DecOut), consume b s = .next t → t.lastOut = some o →
    o.signal ≠ .none →
    t.dlen = 0 ∧ t.dstate = .normal ∧ o.result = .incomplete ∧ t.dbuf = s.dbuf ∧
      t.plen = s.plen ∧ t.outputs = s.outputs ++ [o] ∧ ∀ c : Byte, ∃ u, consume c t = .next u

/-- 43_stream_properties R132: a cell that changes is cell `dlen`, and it holds 0xC0 only from a
decoded `ESC_END`, 0xDB only from a decoded `ESC_ESC`, any other value from a literal. -/
def Obligations.StoredBytesHaveTheirProvenance : Prop :=
  ∀ (i : Instr) (s t : State), exec i s = .next t →
    ∀ (a : Nat) (v : Byte), Memory.read t.dbuf a = some v → Memory.read s.dbuf a ≠ some v →
      a = s.dlen ∧ t.dlen = s.dlen + 1 ∧ s.dlen < s.maxFrame ∧
        ((i = .decEscEnd ∧ v = 0xC0#8) ∨ (i = .decEscEsc ∧ v = 0xDB#8) ∨
          (i = .decLit v ∧ v ≠ 0xC0#8 ∧ v ≠ 0xDB#8))

/-- The frame of every operation: a decoder operation leaves the encoder, the configuration and the
hosts' side alone, stores at cell `dlen` only, and at none where it appends nothing (every case but
the three appends, and an append that overflows), and writes `plen` only at a *FrameComplete*; an
encoder operation leaves the decoder, the serialiser, the configuration and the hosts' side alone
(10_state R21, R24, R27, R31; 20_memory R44; 70 R171). -/
def Obligations.OperationsLeaveTheRestAlone : Prop :=
  ∀ (i : Instr) (s t : State), exec i s = .next t →
    SameHost s t ∧
    (∀ o, encode i = .enc o →
      SameDecoder s t ∧ t.held = s.held ∧ t.sent = s.sent ∧
        t.outbound = s.outbound ++ emission o) ∧
    (∀ c, encode i = .dec c →
      SameEncoder s t ∧ (∀ a, a ≠ s.dlen → Memory.read t.dbuf a = Memory.read s.dbuf a) ∧
        (i = .decEndEmpty ∨ i = .decEndFrame ∨ i = .decEsc ∨ (∃ b, i = .decBadEsc b) ∨
            i = .decReset ∨ s.dlen = s.maxFrame → t.dbuf = s.dbuf) ∧
        (i ≠ .decEndFrame → t.plen = s.plen))

/-- 10_state R27 (D5): the window opens at a *FrameComplete* and every other decoder operation
closes it. -/
def Obligations.WindowOpensOnlyAtFrameComplete : Prop :=
  ∀ (i : Instr) (s t : State) (c : DecCall), encode i = .dec c → exec i s = .next t →
    (t.pvalid = true ↔ i = .decEndFrame) ∧
    (t.pvalid = true ↔ ∃ n, t.lastOut = some ⟨.frameComplete n, .none⟩ ∧ t.plen = n ∧ n = s.dlen)

/-- A meaning faults exactly where an append is asked for past the end of the buffer, which no
reachable state does (log 7). -/
def Obligations.FaultOnlyPastTheBuffer : Prop :=
  ∀ (i : Instr) (s : State) (f : Fault), exec i s = .fault f ↔
    s.maxFrame < s.dlen ∧ f = .noSuchCell s.dlen ∧
      ((s.dstate = .normal ∧ ∃ b, i = .decLit b ∧ b ≠ END ∧ b ≠ ESC) ∨
        (s.dstate = .escaping ∧ (i = .decEscEnd ∨ i = .decEscEsc)))

/-! ### Invariants of every step -/

/-- The invariant of 10_state R34 and 43 R131, kept by every step from every state that has it. -/
def Obligations.EveryStepKeepsTheInvariant : Prop :=
  ∀ s t : State, s.Inv → step s = .next t → t.Inv

/-- The invariant holds after power-on, for every `MAX_FRAME >= 1`. -/
def Obligations.PowerOnHasTheInvariant : Prop :=
  (∀ n, 1 ≤ n → (State.powerOn n).Inv) ∧ State.reset.Inv

/-- 60_exceptions R155: no input makes a sound state fault. -/
def Obligations.SoundStatesNeverFault : Prop :=
  ∀ s : State, s.Inv → SafeStep s

/-- 60_exceptions R155: the only refusals of a step are those the spec asks for, each for the host
error it names at the head of the queue: `ENC.SOF` with a message open, `ENC.BYTE` or `ENC.EOF` with
none, `op_kind == 3`, asked for by request or at an edge (log 14, log 22), or overlapping calls. -/
def Obligations.StepRefusesOnlyHostErrors : Prop :=
  ∀ (s : State) (r : Refusal), step s = .refused r → ∃ x rest, s.inbox = x :: rest ∧
    ((r = .messageAlreadyOpen ∧ s.eopen = true ∧ s.AskedBy x .sof) ∨
      (r = .noMessageOpen ∧ s.eopen = false ∧
        ∃ o, (o = .eof ∨ ∃ b, o = .byte b) ∧ s.AskedBy x o) ∨
      (r = .reservedOpKind ∧ s.AskedBy x .kind3) ∨
      (r = .overlappingCalls ∧ ∃ c1 c2, x = .overlap c1 c2))

/-- 10_state R25 (D30): no step changes `MAX_FRAME`, and an input is taken once, the oldest first
(20_memory R44, R46). -/
def Obligations.StepTakesOneInputAndKeepsMaxFrame : Prop :=
  ∀ s t : State, step s = .next t → t.maxFrame = s.maxFrame ∧ t.inbox = s.inbox.tail

/-- After power-on every element is at the value of 10_state R33 (D10), and a hardware reset brings
it there again with the hosts' side, the configuration and what was already emitted as they were
(70 R170; log 17). -/
def Obligations.HardwareResetValues : Prop :=
  (∀ s : State, s = State.reset →
    s.dstate = .normal ∧ s.dlen = 0 ∧ s.pvalid = false ∧ s.plen = 0 ∧ s.eopen = false ∧
      s.held = none ∧ (∀ a, Memory.read s.dbuf a = none) ∧ 1 ≤ s.maxFrame) ∧
  (∀ (s : State) (rest : List Input), s.inbox = .hardReset :: rest →
    step s = .next { s with
      inbox := rest, dstate := .normal, dlen := 0, dbuf := [], pvalid := false, plen := 0
      eopen := false, held := none, lastOut := none })

/-! ### What a host can and cannot see -/

/-- 10_state R35, 41_decoder R102: one `consume` gives the same outputs and the same payload from two
states that differ in stale cells only, and leaves two such states. -/
def Obligations.ConsumeIgnoresStaleCells : Prop :=
  ∀ (b : Byte) (s t : State), SameToDecoder s t → s.dlen ≤ s.maxFrame →
    ∃ s' t', consume b s = .next s' ∧ consume b t = .next t' ∧ SameToDecoder s' t' ∧
      s'.lastOut = t'.lastOut ∧ s'.payload = t'.payload

/-- 10_state R35: the events of any byte sequence do not depend on stale cells. -/
def Obligations.EventsIgnoreStaleCells : Prop :=
  ∀ (bs : List Byte) (s t : State), SameToDecoder s t → s.dlen ≤ s.maxFrame →
    events bs s = events bs t

/-- 41_decoder R97: after `reset()` and after a hardware reset the decoder behaves as a fresh one
with the same `MAX_FRAME` (D10, D11). -/
def Obligations.EitherResetGivesAFreshDecoder : Prop :=
  ∀ (s : State) (bs : List Byte), ∃ t, exec .decReset s = .next t ∧
    events bs t = events bs (State.powerOn s.maxFrame) ∧
    events bs s.hardReset = events bs (State.powerOn s.maxFrame)

/-- 10_state R28 (D5): a payload read in the window returns the cell and changes nothing but the
record of reads; any other read returns a free byte (93 U4; log 3), about which nothing is said. -/
def Obligations.PayloadReadsAreBounded : Prop :=
  ∀ (s : State) (i : Nat) (rest : List Input), s.inbox = .read i :: rest →
    (∀ v, s.pvalid = true → i < s.plen → Memory.read s.dbuf i = some v →
      step s = .next { s with inbox := rest, reads := s.reads ++ [v] }) ∧
    (¬(s.pvalid = true ∧ i < s.plen) → ∃ v,
      step s = .next { s with
        inbox := rest, reads := s.reads ++ [v], draws := s.draws + 1 })

/-- 00_scope R9 (D2): the counters of a sound state fit `LENW` bits, and no fewer would do. -/
def Obligations.CountersFitTheirWidth : Prop :=
  ∀ s : State, s.Inv → s.dlen < 2 ^ lenw s.maxFrame ∧ s.plen < 2 ^ lenw s.maxFrame ∧
    2 ^ (lenw s.maxFrame - 1) ≤ s.maxFrame

/-- 30_encoding R70 (D7), 93 U10: what the output ports of a sound state can show. -/
def Obligations.PortCodesAreLegal : Prop :=
  ∀ s : State, s.Inv → s.signalPort ≠ 3#2 ∧ (s.resKind = 0#1 → s.resLen = 0) ∧
    (s.resKind = 1#1 → 1 ≤ s.resLen ∧ s.resLen ≤ s.maxFrame ∧ s.signalPort = 0#2)

/-! ### The encoder as a whole -/

/-- 42_encoder R117: the stream form emits exactly `encode(M)` and ends with `eopen == 0`, and
nothing else changes. -/
def Obligations.StreamFormEmitsTheEncodedMessage : Prop :=
  ∀ (m : List Byte) (s : State), s.eopen = false →
    performAll (streamForm m) s = .next { s with outbound := s.outbound ++ encodeMessage m }

/-- 42_encoder R118: the output length and its bounds. -/
def Obligations.EncodedLength : Prop :=
  ∀ m : List Byte,
    (encodeMessage m).length = m.length + 2 + m.countP (fun b => b == 0xC0#8 || b == 0xDB#8) ∧
    m.length + 2 ≤ (encodeMessage m).length ∧ (encodeMessage m).length ≤ 2 * m.length + 2

/-- 30_encoding R64: between the two delimiters no byte is `END` and every `ESC` is followed by
`ESC_END` or `ESC_ESC`. -/
def Obligations.EncodedBodyIsEscaped : Prop :=
  ∀ m : List Byte, ∃ body, encodeMessage m = [END] ++ body ++ [END] ∧ END ∉ body ∧
    ∀ k, body[k]? = some ESC → body[k + 1]? = some ESC_END ∨ body[k + 1]? = some ESC_ESC

/-! ### Streams -/

/-- 20_memory R54: where a byte sequence is cut into chunks, and how long nothing comes, changes no
state and no output, and the events are those of the parts in order (43 R136). `consume_seq` as the
fold is decision D17; that a step with nothing pending is the gap between bytes is log 8. -/
def Obligations.ChunkingIsInvisible : Prop :=
  (∀ (chunks : List (List Byte)) (s : State),
    consumeChunks chunks s = consumeSeq chunks.flatten s) ∧
  (∀ (xs ys : List Byte) (s t : State), consumeSeq xs s = .next t →
    events (xs ++ ys) s = events xs s ++ events ys t) ∧
  (∀ s : State, s.inbox = [] → step s = .next s)

/-- 43_stream_properties R133: an encoded message is reported whole from any state; what precedes it
depends on the start state only; an empty message is reported as nothing. -/
def Obligations.EncodedMessageDecodesFromAnyState : Prop :=
  ∀ (m : List Byte) (s : State), m.length ≤ s.maxFrame →
    ∃ t, consumeSeq (encodeMessage m) s = .next t ∧ t.dstate = .normal ∧ t.dlen = 0 ∧
      (m ≠ [] → t.pvalid = true ∧ t.plen = m.length ∧ t.payload = some m) ∧
      (m = [] → t.pvalid = false) ∧
      events (encodeMessage m) s =
        s.leadingEvents ++ (if m = [] then [] else [.frame (some m)])

/-- 43_stream_properties R134, R140: a fresh decoder reports a concatenation of encoded messages
message by message, in order; empty messages are not reported. -/
def Obligations.ConcatenatedMessagesDecodeInOrder : Prop :=
  ∀ (ms : List (List Byte)) (s : State), s.Fresh → (∀ m ∈ ms, m.length ≤ s.maxFrame) →
    events (ms.flatMap encodeMessage) s =
      (ms.filter fun m => !m.isEmpty).map fun m => .frame (some m)

/-- 43_stream_properties R139: a message of any length at a fresh decoder: one `FrameOverflow` for
every `MAX_FRAME + 1` bytes, then what is left, if anything, as one frame. -/
def Obligations.LongMessageOverflowsAndLeavesItsTail : Prop :=
  ∀ (m : List Byte) (s : State), s.Fresh →
    events (encodeMessage m) s =
      List.replicate (m.length / (s.maxFrame + 1)) .overflow ++
        (if m.length % (s.maxFrame + 1) = 0 then []
          else [.frame (some (m.drop (m.length - m.length % (s.maxFrame + 1))))])

/-- 43_stream_properties R139 (DOC0 §8): `MAX_FRAME + 1` literals at a fresh decoder overflow at the
last, and a message after that point is reported intact. -/
def Obligations.OverflowIsRecovered : Prop :=
  ∀ (ls m : List Byte) (s : State), s.Fresh → ls.length = s.maxFrame + 1 →
    (∀ b ∈ ls, b ≠ END ∧ b ≠ ESC) → m ≠ [] → m.length ≤ s.maxFrame →
    ∃ t, consumeSeq ls s = .next t ∧ t.Fresh ∧
      t.outputs = s.outputs ++ List.replicate s.maxFrame ⟨.incomplete, .none⟩ ++
        [⟨.incomplete, .frameOverflow⟩] ∧
      events (encodeMessage m) t = [.frame (some m)]

/-- 43_stream_properties R141: a bad escape drops what was accumulated and its own second byte; the
rest of the frame is reported at its `END`. -/
def Obligations.TailOfMalformedFrameIsReported : Prop :=
  ∀ (p q : List Byte) (c : Byte) (s : State), s.Fresh → p.length ≤ s.maxFrame →
    q.length ≤ s.maxFrame → q ≠ [] → c ≠ ESC_END → c ≠ ESC_ESC →
    events (p.flatMap esc ++ [ESC, c] ++ q.flatMap esc ++ [END]) s =
      [.invalidEscape, .frame (some q)]

/-- 43_stream_properties R138: of two consecutive `END` bytes the first completes a frame exactly
where one was in progress, and leaves the buffer empty; the second never completes one. -/
def Obligations.SecondEndReportsNothing : Prop :=
  ∀ s : State, ∃ t u, consume END s = .next t ∧ consume END t = .next u ∧
    ((∃ n, t.lastOut = some ⟨.frameComplete n, .none⟩) ↔ s.dstate = .normal ∧ s.dlen ≠ 0) ∧
    t.dlen = 0 ∧ u.dlen = 0 ∧ u.lastOut = some ⟨.incomplete, .none⟩

/-! ### Ports and instances -/

/-- 20_memory R50 to R52, 10_state R33: `rst` goes before everything else at an edge. It sets every
element to its reset value, decoder and encoder alike, and what the other pins present is neither
consumed, performed nor sent (D13, D14; log 22, log 24). -/
def Obligations.EdgeResetClearsTheBlock : Prop :=
  ∀ (s : State) (d : DecPins) (e : EncPins) (rest : List Input),
    s.inbox = .edge true d e :: rest →
    ∀ s0 : State, s0 = State.sample d e { s with inbox := rest } →
    step s = .next { s0 with
      dstate := .normal, dlen := 0, dbuf := [], pvalid := false, plen := 0
      eopen := false, held := none, lastOut := none }

/-- 20_memory R51 (D13, D14): what the decoder does at every edge without `rst` that is not refused,
whatever the encoder does at it: `clr` performs `reset()` and the byte presented is discarded, else
`in_valid` performs `consume`, else the outputs go to 0 and nothing changes. -/
def Obligations.DecoderEdgePriority : Prop :=
  ∀ (s : State) (d : DecPins) (e : EncPins) (rest : List Input),
    s.inbox = .edge false d e :: rest → s.dlen ≤ s.maxFrame →
    (∀ o, s.askedAtEdge e = some o → s.inProtocol o = true) →
    ∃ t, step s = .next t ∧
      SameHost (State.sample d e { s with inbox := rest }) t ∧
      (d.clr = true → SameDecoder { s with
        pvalid := false, dstate := .normal, dlen := 0, lastOut := none } t) ∧
      (d.clr = false → d.inValid = true → ∃ u, consume d.inByte s = .next u ∧ SameDecoder u t) ∧
      (d.clr = false → d.inValid = false → SameDecoder { s with lastOut := none } t)

/-- 42_encoder R121 (D16; log 14): what the encoder does at every edge without `rst` that is not
refused, whatever the decoder does at it: nothing without `out_ready`; a held byte goes before
anything else; else an operation in protocol is performed, its first byte goes and its second, if
any, is held. -/
def Obligations.EncoderSendsOneByteAnEdge : Prop :=
  ∀ (s : State) (d : DecPins) (e : EncPins) (rest : List Input),
    s.inbox = .edge false d e :: rest → s.dlen ≤ s.maxFrame →
    (∀ o, s.askedAtEdge e = some o → s.inProtocol o = true) →
    ∃ t, step s = .next t ∧
      (e.outReady = false → SameEncoder s t) ∧
      (e.outReady = true → ∀ h, s.held = some h →
        SameEncoder { s with sent := s.sent ++ [h], held := none } t) ∧
      (e.outReady = true → s.held = none → e.opValid = false → SameEncoder s t) ∧
      (e.outReady = true → s.held = none → e.opValid = true →
        ∀ o, o = decodeOpKind e.opKind e.opByte →
          SameEncoder { s with
            eopen := decide (o ≠ .eof), outbound := s.outbound ++ emission o
            sent := s.sent ++ (emission o).take 1, held := (emission o)[1]? } t)

/-- 42_encoder R114 to R116, 93 U8: an edge at which the encoder is to perform an operation out of
protocol is refused, the decoder's part of it with it (the model's choice, log 14, log 22). -/
def Obligations.EdgeOutOfProtocolIsRefused : Prop :=
  ∀ (s : State) (d : DecPins) (e : EncPins) (rest : List Input) (o : EncOp),
    s.inbox = .edge false d e :: rest → s.dlen ≤ s.maxFrame →
    s.askedAtEdge e = some o → s.inProtocol o = false →
    (o = .sof → step s = .refused .messageAlreadyOpen) ∧
    (o = .eof ∨ (∃ b, o = .byte b) → step s = .refused .noMessageOpen) ∧
    (o = .kind3 → step s = .refused .reservedOpKind)

/-- 20_memory R50, R52 (D14): what the output pins show at an edge that is not refused. That they are
sampled before the edge acts is log 15, that the first byte of an operation presented in protocol
shows in the same cycle is the model's reading (log 14), and that `rst` gates none of them is its
choice (log 24). -/
def Obligations.PortsShowTheState : Prop :=
  ∀ (s t : State) (rst : Bool) (d : DecPins) (e : EncPins) (rest : List Input),
    s.inbox = .edge rst d e :: rest → step s = .next t →
    ∃ p : PortSample, t.samples = s.samples ++ [p] ∧
      p.inReady = true ∧ p.resKind = s.resKind ∧ p.resLen = s.resLen ∧ p.signal = s.signalPort ∧
      p.payValid = s.pvalid ∧ p.payLen = s.plen ∧
      (∀ v, s.pvalid = true → d.rdIdx < s.plen → Memory.read s.dbuf d.rdIdx = some v →
        p.rdByte = v) ∧
      (p.opReady = false ↔ ∃ h, s.held = some h) ∧
      (∀ h, s.held = some h → p.outValid = true ∧ p.outByte = h) ∧
      (∀ o x, s.held = none → e.opValid = true → o = decodeOpKind e.opKind e.opByte →
        s.inProtocol o = true → (emission o)[0]? = some x → p.outValid = true ∧ p.outByte = x) ∧
      (s.held = none → e.opValid = false → p.outValid = false)

/-- 42_encoder R121: edges without `rst` keep the outbound stream equal to what was sent and what is
held; and while a byte is held no operation is accepted, so the halves of an escape are adjacent. -/
def Obligations.SerialiserKeepsTheStream : Prop :=
  ∀ (d : DecPins) (e : EncPins) (s t : State), clockEdge false d e s = .next t →
    (s.sent ++ s.held.toList = s.outbound → t.sent ++ t.held.toList = t.outbound) ∧
    (∀ h, s.held = some h → t.eopen = s.eopen ∧ t.outbound = s.outbound ∧
      ((t.sent = s.sent ∧ t.held = some h) ∨ (t.sent = s.sent ++ [h] ∧ t.held = none)))

/-- 60_exceptions R163: a step of one instance leaves every other as it was (log 18). -/
def Obligations.InstancesShareNothing : Prop :=
  ∀ (k : Nat) (ms ns : List State), stepInstance k ms = .next ns →
    ns.length = ms.length ∧ (∀ j, j ≠ k → ns[j]? = ms[j]?) ∧
    ∀ s, ms[k]? = some s → ∃ t, step s = .next t ∧ ns[k]? = some t
end

