-- ==== Sys2Proof/Laws/Constants.lean ====
section
/-! SUPPORT. The four constants are pairwise distinct (40_protocol_constants R82). -/

namespace Sys2Proof

@[simp] theorem END_ne_ESC : END ≠ ESC := by decide
@[simp] theorem ESC_ne_END : ESC ≠ END := by decide
@[simp] theorem END_ne_ESC_END : END ≠ ESC_END := by decide
@[simp] theorem ESC_END_ne_END : ESC_END ≠ END := by decide
@[simp] theorem END_ne_ESC_ESC : END ≠ ESC_ESC := by decide
@[simp] theorem ESC_ESC_ne_END : ESC_ESC ≠ END := by decide
@[simp] theorem ESC_ne_ESC_END : ESC ≠ ESC_END := by decide
@[simp] theorem ESC_END_ne_ESC : ESC_END ≠ ESC := by decide
@[simp] theorem ESC_ne_ESC_ESC : ESC ≠ ESC_ESC := by decide
@[simp] theorem ESC_ESC_ne_ESC : ESC_ESC ≠ ESC := by decide
@[simp] theorem ESC_END_ne_ESC_ESC : ESC_END ≠ ESC_ESC := by decide
@[simp] theorem ESC_ESC_ne_ESC_END : ESC_ESC ≠ ESC_END := by decide

end Sys2Proof
end

