-- ==== Sys2Proof/Laws/State.lean ====
section
/-! SUPPORT. One lemma per field per update of the state, so that no later proof unfolds a record
update. -/

namespace Sys2Proof.Machine.State

@[simp] theorem report_maxFrame (r : Result) (g : Signal) (s : State) : (report r g s).maxFrame = s.maxFrame := rfl
@[simp] theorem report_dstate (r : Result) (g : Signal) (s : State) : (report r g s).dstate = s.dstate := rfl
@[simp] theorem report_dlen (r : Result) (g : Signal) (s : State) : (report r g s).dlen = s.dlen := rfl
@[simp] theorem report_dbuf (r : Result) (g : Signal) (s : State) : (report r g s).dbuf = s.dbuf := rfl
@[simp] theorem report_pvalid (r : Result) (g : Signal) (s : State) : (report r g s).pvalid = s.pvalid := rfl
@[simp] theorem report_plen (r : Result) (g : Signal) (s : State) : (report r g s).plen = s.plen := rfl
@[simp] theorem report_eopen (r : Result) (g : Signal) (s : State) : (report r g s).eopen = s.eopen := rfl
@[simp] theorem report_held (r : Result) (g : Signal) (s : State) : (report r g s).held = s.held := rfl
@[simp] theorem report_lastOut (r : Result) (g : Signal) (s : State) : (report r g s).lastOut = some ⟨r, g⟩ := rfl
@[simp] theorem report_inbox (r : Result) (g : Signal) (s : State) : (report r g s).inbox = s.inbox := rfl
@[simp] theorem report_outputs (r : Result) (g : Signal) (s : State) : (report r g s).outputs = s.outputs ++ [⟨r, g⟩] := rfl
@[simp] theorem report_outbound (r : Result) (g : Signal) (s : State) : (report r g s).outbound = s.outbound := rfl
@[simp] theorem report_sent (r : Result) (g : Signal) (s : State) : (report r g s).sent = s.sent := rfl
@[simp] theorem report_reads (r : Result) (g : Signal) (s : State) : (report r g s).reads = s.reads := rfl
@[simp] theorem report_samples (r : Result) (g : Signal) (s : State) : (report r g s).samples = s.samples := rfl
@[simp] theorem report_draws (r : Result) (g : Signal) (s : State) : (report r g s).draws = s.draws := rfl

@[simp] theorem closeWindow_maxFrame (s : State) : (closeWindow s).maxFrame = s.maxFrame := rfl
@[simp] theorem closeWindow_dstate (s : State) : (closeWindow s).dstate = s.dstate := rfl
@[simp] theorem closeWindow_dlen (s : State) : (closeWindow s).dlen = s.dlen := rfl
@[simp] theorem closeWindow_dbuf (s : State) : (closeWindow s).dbuf = s.dbuf := rfl
@[simp] theorem closeWindow_pvalid (s : State) : (closeWindow s).pvalid = false := rfl
@[simp] theorem closeWindow_plen (s : State) : (closeWindow s).plen = s.plen := rfl
@[simp] theorem closeWindow_eopen (s : State) : (closeWindow s).eopen = s.eopen := rfl
@[simp] theorem closeWindow_held (s : State) : (closeWindow s).held = s.held := rfl
@[simp] theorem closeWindow_lastOut (s : State) : (closeWindow s).lastOut = s.lastOut := rfl
@[simp] theorem closeWindow_inbox (s : State) : (closeWindow s).inbox = s.inbox := rfl
@[simp] theorem closeWindow_outputs (s : State) : (closeWindow s).outputs = s.outputs := rfl
@[simp] theorem closeWindow_outbound (s : State) : (closeWindow s).outbound = s.outbound := rfl
@[simp] theorem closeWindow_sent (s : State) : (closeWindow s).sent = s.sent := rfl
@[simp] theorem closeWindow_reads (s : State) : (closeWindow s).reads = s.reads := rfl
@[simp] theorem closeWindow_samples (s : State) : (closeWindow s).samples = s.samples := rfl
@[simp] theorem closeWindow_draws (s : State) : (closeWindow s).draws = s.draws := rfl

@[simp] theorem openWindow_maxFrame (s : State) : (openWindow s).maxFrame = s.maxFrame := rfl
@[simp] theorem openWindow_dstate (s : State) : (openWindow s).dstate = s.dstate := rfl
@[simp] theorem openWindow_dlen (s : State) : (openWindow s).dlen = s.dlen := rfl
@[simp] theorem openWindow_dbuf (s : State) : (openWindow s).dbuf = s.dbuf := rfl
@[simp] theorem openWindow_pvalid (s : State) : (openWindow s).pvalid = true := rfl
@[simp] theorem openWindow_plen (s : State) : (openWindow s).plen = s.dlen := rfl
@[simp] theorem openWindow_eopen (s : State) : (openWindow s).eopen = s.eopen := rfl
@[simp] theorem openWindow_held (s : State) : (openWindow s).held = s.held := rfl
@[simp] theorem openWindow_lastOut (s : State) : (openWindow s).lastOut = s.lastOut := rfl
@[simp] theorem openWindow_inbox (s : State) : (openWindow s).inbox = s.inbox := rfl
@[simp] theorem openWindow_outputs (s : State) : (openWindow s).outputs = s.outputs := rfl
@[simp] theorem openWindow_outbound (s : State) : (openWindow s).outbound = s.outbound := rfl
@[simp] theorem openWindow_sent (s : State) : (openWindow s).sent = s.sent := rfl
@[simp] theorem openWindow_reads (s : State) : (openWindow s).reads = s.reads := rfl
@[simp] theorem openWindow_samples (s : State) : (openWindow s).samples = s.samples := rfl
@[simp] theorem openWindow_draws (s : State) : (openWindow s).draws = s.draws := rfl

@[simp] theorem clearBuffer_maxFrame (s : State) : (clearBuffer s).maxFrame = s.maxFrame := rfl
@[simp] theorem clearBuffer_dstate (s : State) : (clearBuffer s).dstate = s.dstate := rfl
@[simp] theorem clearBuffer_dlen (s : State) : (clearBuffer s).dlen = 0 := rfl
@[simp] theorem clearBuffer_dbuf (s : State) : (clearBuffer s).dbuf = s.dbuf := rfl
@[simp] theorem clearBuffer_pvalid (s : State) : (clearBuffer s).pvalid = s.pvalid := rfl
@[simp] theorem clearBuffer_plen (s : State) : (clearBuffer s).plen = s.plen := rfl
@[simp] theorem clearBuffer_eopen (s : State) : (clearBuffer s).eopen = s.eopen := rfl
@[simp] theorem clearBuffer_held (s : State) : (clearBuffer s).held = s.held := rfl
@[simp] theorem clearBuffer_lastOut (s : State) : (clearBuffer s).lastOut = s.lastOut := rfl
@[simp] theorem clearBuffer_inbox (s : State) : (clearBuffer s).inbox = s.inbox := rfl
@[simp] theorem clearBuffer_outputs (s : State) : (clearBuffer s).outputs = s.outputs := rfl
@[simp] theorem clearBuffer_outbound (s : State) : (clearBuffer s).outbound = s.outbound := rfl
@[simp] theorem clearBuffer_sent (s : State) : (clearBuffer s).sent = s.sent := rfl
@[simp] theorem clearBuffer_reads (s : State) : (clearBuffer s).reads = s.reads := rfl
@[simp] theorem clearBuffer_samples (s : State) : (clearBuffer s).samples = s.samples := rfl
@[simp] theorem clearBuffer_draws (s : State) : (clearBuffer s).draws = s.draws := rfl

@[simp] theorem toDState_maxFrame (d : DState) (s : State) : (toDState d s).maxFrame = s.maxFrame := rfl
@[simp] theorem toDState_dstate (d : DState) (s : State) : (toDState d s).dstate = d := rfl
@[simp] theorem toDState_dlen (d : DState) (s : State) : (toDState d s).dlen = s.dlen := rfl
@[simp] theorem toDState_dbuf (d : DState) (s : State) : (toDState d s).dbuf = s.dbuf := rfl
@[simp] theorem toDState_pvalid (d : DState) (s : State) : (toDState d s).pvalid = s.pvalid := rfl
@[simp] theorem toDState_plen (d : DState) (s : State) : (toDState d s).plen = s.plen := rfl
@[simp] theorem toDState_eopen (d : DState) (s : State) : (toDState d s).eopen = s.eopen := rfl
@[simp] theorem toDState_held (d : DState) (s : State) : (toDState d s).held = s.held := rfl
@[simp] theorem toDState_lastOut (d : DState) (s : State) : (toDState d s).lastOut = s.lastOut := rfl
@[simp] theorem toDState_inbox (d : DState) (s : State) : (toDState d s).inbox = s.inbox := rfl
@[simp] theorem toDState_outputs (d : DState) (s : State) : (toDState d s).outputs = s.outputs := rfl
@[simp] theorem toDState_outbound (d : DState) (s : State) : (toDState d s).outbound = s.outbound := rfl
@[simp] theorem toDState_sent (d : DState) (s : State) : (toDState d s).sent = s.sent := rfl
@[simp] theorem toDState_reads (d : DState) (s : State) : (toDState d s).reads = s.reads := rfl
@[simp] theorem toDState_samples (d : DState) (s : State) : (toDState d s).samples = s.samples := rfl
@[simp] theorem toDState_draws (d : DState) (s : State) : (toDState d s).draws = s.draws := rfl

@[simp] theorem store_maxFrame (v : Byte) (s : State) : (store v s).maxFrame = s.maxFrame := rfl
@[simp] theorem store_dstate (v : Byte) (s : State) : (store v s).dstate = s.dstate := rfl
@[simp] theorem store_dlen (v : Byte) (s : State) : (store v s).dlen = s.dlen + 1 := rfl
@[simp] theorem store_dbuf (v : Byte) (s : State) : (store v s).dbuf = Memory.write s.dbuf s.dlen v := rfl
@[simp] theorem store_pvalid (v : Byte) (s : State) : (store v s).pvalid = s.pvalid := rfl
@[simp] theorem store_plen (v : Byte) (s : State) : (store v s).plen = s.plen := rfl
@[simp] theorem store_eopen (v : Byte) (s : State) : (store v s).eopen = s.eopen := rfl
@[simp] theorem store_held (v : Byte) (s : State) : (store v s).held = s.held := rfl
@[simp] theorem store_lastOut (v : Byte) (s : State) : (store v s).lastOut = s.lastOut := rfl
@[simp] theorem store_inbox (v : Byte) (s : State) : (store v s).inbox = s.inbox := rfl
@[simp] theorem store_outputs (v : Byte) (s : State) : (store v s).outputs = s.outputs := rfl
@[simp] theorem store_outbound (v : Byte) (s : State) : (store v s).outbound = s.outbound := rfl
@[simp] theorem store_sent (v : Byte) (s : State) : (store v s).sent = s.sent := rfl
@[simp] theorem store_reads (v : Byte) (s : State) : (store v s).reads = s.reads := rfl
@[simp] theorem store_samples (v : Byte) (s : State) : (store v s).samples = s.samples := rfl
@[simp] theorem store_draws (v : Byte) (s : State) : (store v s).draws = s.draws := rfl

@[simp] theorem raiseSignal_maxFrame (g : Signal) (s : State) : (raiseSignal g s).maxFrame = s.maxFrame := rfl
@[simp] theorem raiseSignal_dstate (g : Signal) (s : State) : (raiseSignal g s).dstate = .normal := rfl
@[simp] theorem raiseSignal_dlen (g : Signal) (s : State) : (raiseSignal g s).dlen = 0 := rfl
@[simp] theorem raiseSignal_dbuf (g : Signal) (s : State) : (raiseSignal g s).dbuf = s.dbuf := rfl
@[simp] theorem raiseSignal_pvalid (g : Signal) (s : State) : (raiseSignal g s).pvalid = false := rfl
@[simp] theorem raiseSignal_plen (g : Signal) (s : State) : (raiseSignal g s).plen = s.plen := rfl
@[simp] theorem raiseSignal_eopen (g : Signal) (s : State) : (raiseSignal g s).eopen = s.eopen := rfl
@[simp] theorem raiseSignal_held (g : Signal) (s : State) : (raiseSignal g s).held = s.held := rfl
@[simp] theorem raiseSignal_lastOut (g : Signal) (s : State) : (raiseSignal g s).lastOut = some ⟨.incomplete, g⟩ := rfl
@[simp] theorem raiseSignal_inbox (g : Signal) (s : State) : (raiseSignal g s).inbox = s.inbox := rfl
@[simp] theorem raiseSignal_outputs (g : Signal) (s : State) : (raiseSignal g s).outputs = s.outputs ++ [⟨.incomplete, g⟩] := rfl
@[simp] theorem raiseSignal_outbound (g : Signal) (s : State) : (raiseSignal g s).outbound = s.outbound := rfl
@[simp] theorem raiseSignal_sent (g : Signal) (s : State) : (raiseSignal g s).sent = s.sent := rfl
@[simp] theorem raiseSignal_reads (g : Signal) (s : State) : (raiseSignal g s).reads = s.reads := rfl
@[simp] theorem raiseSignal_samples (g : Signal) (s : State) : (raiseSignal g s).samples = s.samples := rfl
@[simp] theorem raiseSignal_draws (g : Signal) (s : State) : (raiseSignal g s).draws = s.draws := rfl

@[simp] theorem resetDecoder_maxFrame (s : State) : (resetDecoder s).maxFrame = s.maxFrame := rfl
@[simp] theorem resetDecoder_dstate (s : State) : (resetDecoder s).dstate = .normal := rfl
@[simp] theorem resetDecoder_dlen (s : State) : (resetDecoder s).dlen = 0 := rfl
@[simp] theorem resetDecoder_dbuf (s : State) : (resetDecoder s).dbuf = s.dbuf := rfl
@[simp] theorem resetDecoder_pvalid (s : State) : (resetDecoder s).pvalid = false := rfl
@[simp] theorem resetDecoder_plen (s : State) : (resetDecoder s).plen = s.plen := rfl
@[simp] theorem resetDecoder_eopen (s : State) : (resetDecoder s).eopen = s.eopen := rfl
@[simp] theorem resetDecoder_held (s : State) : (resetDecoder s).held = s.held := rfl
@[simp] theorem resetDecoder_lastOut (s : State) : (resetDecoder s).lastOut = none := rfl
@[simp] theorem resetDecoder_inbox (s : State) : (resetDecoder s).inbox = s.inbox := rfl
@[simp] theorem resetDecoder_outputs (s : State) : (resetDecoder s).outputs = s.outputs := rfl
@[simp] theorem resetDecoder_outbound (s : State) : (resetDecoder s).outbound = s.outbound := rfl
@[simp] theorem resetDecoder_sent (s : State) : (resetDecoder s).sent = s.sent := rfl
@[simp] theorem resetDecoder_reads (s : State) : (resetDecoder s).reads = s.reads := rfl
@[simp] theorem resetDecoder_samples (s : State) : (resetDecoder s).samples = s.samples := rfl
@[simp] theorem resetDecoder_draws (s : State) : (resetDecoder s).draws = s.draws := rfl

@[simp] theorem hardResetDecoder_maxFrame (s : State) : (hardResetDecoder s).maxFrame = s.maxFrame := rfl
@[simp] theorem hardResetDecoder_dstate (s : State) : (hardResetDecoder s).dstate = .normal := rfl
@[simp] theorem hardResetDecoder_dlen (s : State) : (hardResetDecoder s).dlen = 0 := rfl
@[simp] theorem hardResetDecoder_dbuf (s : State) : (hardResetDecoder s).dbuf = [] := rfl
@[simp] theorem hardResetDecoder_pvalid (s : State) : (hardResetDecoder s).pvalid = false := rfl
@[simp] theorem hardResetDecoder_plen (s : State) : (hardResetDecoder s).plen = 0 := rfl
@[simp] theorem hardResetDecoder_eopen (s : State) : (hardResetDecoder s).eopen = s.eopen := rfl
@[simp] theorem hardResetDecoder_held (s : State) : (hardResetDecoder s).held = s.held := rfl
@[simp] theorem hardResetDecoder_lastOut (s : State) : (hardResetDecoder s).lastOut = none := rfl
@[simp] theorem hardResetDecoder_inbox (s : State) : (hardResetDecoder s).inbox = s.inbox := rfl
@[simp] theorem hardResetDecoder_outputs (s : State) : (hardResetDecoder s).outputs = s.outputs := rfl
@[simp] theorem hardResetDecoder_outbound (s : State) : (hardResetDecoder s).outbound = s.outbound := rfl
@[simp] theorem hardResetDecoder_sent (s : State) : (hardResetDecoder s).sent = s.sent := rfl
@[simp] theorem hardResetDecoder_reads (s : State) : (hardResetDecoder s).reads = s.reads := rfl
@[simp] theorem hardResetDecoder_samples (s : State) : (hardResetDecoder s).samples = s.samples := rfl
@[simp] theorem hardResetDecoder_draws (s : State) : (hardResetDecoder s).draws = s.draws := rfl

@[simp] theorem hardResetEncoder_maxFrame (s : State) : (hardResetEncoder s).maxFrame = s.maxFrame := rfl
@[simp] theorem hardResetEncoder_dstate (s : State) : (hardResetEncoder s).dstate = s.dstate := rfl
@[simp] theorem hardResetEncoder_dlen (s : State) : (hardResetEncoder s).dlen = s.dlen := rfl
@[simp] theorem hardResetEncoder_dbuf (s : State) : (hardResetEncoder s).dbuf = s.dbuf := rfl
@[simp] theorem hardResetEncoder_pvalid (s : State) : (hardResetEncoder s).pvalid = s.pvalid := rfl
@[simp] theorem hardResetEncoder_plen (s : State) : (hardResetEncoder s).plen = s.plen := rfl
@[simp] theorem hardResetEncoder_eopen (s : State) : (hardResetEncoder s).eopen = false := rfl
@[simp] theorem hardResetEncoder_held (s : State) : (hardResetEncoder s).held = none := rfl
@[simp] theorem hardResetEncoder_lastOut (s : State) : (hardResetEncoder s).lastOut = s.lastOut := rfl
@[simp] theorem hardResetEncoder_inbox (s : State) : (hardResetEncoder s).inbox = s.inbox := rfl
@[simp] theorem hardResetEncoder_outputs (s : State) : (hardResetEncoder s).outputs = s.outputs := rfl
@[simp] theorem hardResetEncoder_outbound (s : State) : (hardResetEncoder s).outbound = s.outbound := rfl
@[simp] theorem hardResetEncoder_sent (s : State) : (hardResetEncoder s).sent = s.sent := rfl
@[simp] theorem hardResetEncoder_reads (s : State) : (hardResetEncoder s).reads = s.reads := rfl
@[simp] theorem hardResetEncoder_samples (s : State) : (hardResetEncoder s).samples = s.samples := rfl
@[simp] theorem hardResetEncoder_draws (s : State) : (hardResetEncoder s).draws = s.draws := rfl

@[simp] theorem hardReset_maxFrame (s : State) : (hardReset s).maxFrame = s.maxFrame := rfl
@[simp] theorem hardReset_dstate (s : State) : (hardReset s).dstate = .normal := rfl
@[simp] theorem hardReset_dlen (s : State) : (hardReset s).dlen = 0 := rfl
@[simp] theorem hardReset_dbuf (s : State) : (hardReset s).dbuf = [] := rfl
@[simp] theorem hardReset_pvalid (s : State) : (hardReset s).pvalid = false := rfl
@[simp] theorem hardReset_plen (s : State) : (hardReset s).plen = 0 := rfl
@[simp] theorem hardReset_eopen (s : State) : (hardReset s).eopen = false := rfl
@[simp] theorem hardReset_held (s : State) : (hardReset s).held = none := rfl
@[simp] theorem hardReset_lastOut (s : State) : (hardReset s).lastOut = none := rfl
@[simp] theorem hardReset_inbox (s : State) : (hardReset s).inbox = s.inbox := rfl
@[simp] theorem hardReset_outputs (s : State) : (hardReset s).outputs = s.outputs := rfl
@[simp] theorem hardReset_outbound (s : State) : (hardReset s).outbound = s.outbound := rfl
@[simp] theorem hardReset_sent (s : State) : (hardReset s).sent = s.sent := rfl
@[simp] theorem hardReset_reads (s : State) : (hardReset s).reads = s.reads := rfl
@[simp] theorem hardReset_samples (s : State) : (hardReset s).samples = s.samples := rfl
@[simp] theorem hardReset_draws (s : State) : (hardReset s).draws = s.draws := rfl

@[simp] theorem emit_maxFrame (bs : List Byte) (s : State) : (emit bs s).maxFrame = s.maxFrame := rfl
@[simp] theorem emit_dstate (bs : List Byte) (s : State) : (emit bs s).dstate = s.dstate := rfl
@[simp] theorem emit_dlen (bs : List Byte) (s : State) : (emit bs s).dlen = s.dlen := rfl
@[simp] theorem emit_dbuf (bs : List Byte) (s : State) : (emit bs s).dbuf = s.dbuf := rfl
@[simp] theorem emit_pvalid (bs : List Byte) (s : State) : (emit bs s).pvalid = s.pvalid := rfl
@[simp] theorem emit_plen (bs : List Byte) (s : State) : (emit bs s).plen = s.plen := rfl
@[simp] theorem emit_eopen (bs : List Byte) (s : State) : (emit bs s).eopen = s.eopen := rfl
@[simp] theorem emit_held (bs : List Byte) (s : State) : (emit bs s).held = s.held := rfl
@[simp] theorem emit_lastOut (bs : List Byte) (s : State) : (emit bs s).lastOut = s.lastOut := rfl
@[simp] theorem emit_inbox (bs : List Byte) (s : State) : (emit bs s).inbox = s.inbox := rfl
@[simp] theorem emit_outputs (bs : List Byte) (s : State) : (emit bs s).outputs = s.outputs := rfl
@[simp] theorem emit_outbound (bs : List Byte) (s : State) : (emit bs s).outbound = s.outbound ++ bs := rfl
@[simp] theorem emit_sent (bs : List Byte) (s : State) : (emit bs s).sent = s.sent := rfl
@[simp] theorem emit_reads (bs : List Byte) (s : State) : (emit bs s).reads = s.reads := rfl
@[simp] theorem emit_samples (bs : List Byte) (s : State) : (emit bs s).samples = s.samples := rfl
@[simp] theorem emit_draws (bs : List Byte) (s : State) : (emit bs s).draws = s.draws := rfl

@[simp] theorem setOpen_maxFrame (v : Bool) (s : State) : (setOpen v s).maxFrame = s.maxFrame := rfl
@[simp] theorem setOpen_dstate (v : Bool) (s : State) : (setOpen v s).dstate = s.dstate := rfl
@[simp] theorem setOpen_dlen (v : Bool) (s : State) : (setOpen v s).dlen = s.dlen := rfl
@[simp] theorem setOpen_dbuf (v : Bool) (s : State) : (setOpen v s).dbuf = s.dbuf := rfl
@[simp] theorem setOpen_pvalid (v : Bool) (s : State) : (setOpen v s).pvalid = s.pvalid := rfl
@[simp] theorem setOpen_plen (v : Bool) (s : State) : (setOpen v s).plen = s.plen := rfl
@[simp] theorem setOpen_eopen (v : Bool) (s : State) : (setOpen v s).eopen = v := rfl
@[simp] theorem setOpen_held (v : Bool) (s : State) : (setOpen v s).held = s.held := rfl
@[simp] theorem setOpen_lastOut (v : Bool) (s : State) : (setOpen v s).lastOut = s.lastOut := rfl
@[simp] theorem setOpen_inbox (v : Bool) (s : State) : (setOpen v s).inbox = s.inbox := rfl
@[simp] theorem setOpen_outputs (v : Bool) (s : State) : (setOpen v s).outputs = s.outputs := rfl
@[simp] theorem setOpen_outbound (v : Bool) (s : State) : (setOpen v s).outbound = s.outbound := rfl
@[simp] theorem setOpen_sent (v : Bool) (s : State) : (setOpen v s).sent = s.sent := rfl
@[simp] theorem setOpen_reads (v : Bool) (s : State) : (setOpen v s).reads = s.reads := rfl
@[simp] theorem setOpen_samples (v : Bool) (s : State) : (setOpen v s).samples = s.samples := rfl
@[simp] theorem setOpen_draws (v : Bool) (s : State) : (setOpen v s).draws = s.draws := rfl

@[simp] theorem sendHeld_maxFrame (h : Byte) (s : State) : (sendHeld h s).maxFrame = s.maxFrame := rfl
@[simp] theorem sendHeld_dstate (h : Byte) (s : State) : (sendHeld h s).dstate = s.dstate := rfl
@[simp] theorem sendHeld_dlen (h : Byte) (s : State) : (sendHeld h s).dlen = s.dlen := rfl
@[simp] theorem sendHeld_dbuf (h : Byte) (s : State) : (sendHeld h s).dbuf = s.dbuf := rfl
@[simp] theorem sendHeld_pvalid (h : Byte) (s : State) : (sendHeld h s).pvalid = s.pvalid := rfl
@[simp] theorem sendHeld_plen (h : Byte) (s : State) : (sendHeld h s).plen = s.plen := rfl
@[simp] theorem sendHeld_eopen (h : Byte) (s : State) : (sendHeld h s).eopen = s.eopen := rfl
@[simp] theorem sendHeld_held (h : Byte) (s : State) : (sendHeld h s).held = none := rfl
@[simp] theorem sendHeld_lastOut (h : Byte) (s : State) : (sendHeld h s).lastOut = s.lastOut := rfl
@[simp] theorem sendHeld_inbox (h : Byte) (s : State) : (sendHeld h s).inbox = s.inbox := rfl
@[simp] theorem sendHeld_outputs (h : Byte) (s : State) : (sendHeld h s).outputs = s.outputs := rfl
@[simp] theorem sendHeld_outbound (h : Byte) (s : State) : (sendHeld h s).outbound = s.outbound := rfl
@[simp] theorem sendHeld_sent (h : Byte) (s : State) : (sendHeld h s).sent = s.sent ++ [h] := rfl
@[simp] theorem sendHeld_reads (h : Byte) (s : State) : (sendHeld h s).reads = s.reads := rfl
@[simp] theorem sendHeld_samples (h : Byte) (s : State) : (sendHeld h s).samples = s.samples := rfl
@[simp] theorem sendHeld_draws (h : Byte) (s : State) : (sendHeld h s).draws = s.draws := rfl

@[simp] theorem sendFirst_maxFrame (bs : List Byte) (s : State) : (sendFirst bs s).maxFrame = s.maxFrame := rfl
@[simp] theorem sendFirst_dstate (bs : List Byte) (s : State) : (sendFirst bs s).dstate = s.dstate := rfl
@[simp] theorem sendFirst_dlen (bs : List Byte) (s : State) : (sendFirst bs s).dlen = s.dlen := rfl
@[simp] theorem sendFirst_dbuf (bs : List Byte) (s : State) : (sendFirst bs s).dbuf = s.dbuf := rfl
@[simp] theorem sendFirst_pvalid (bs : List Byte) (s : State) : (sendFirst bs s).pvalid = s.pvalid := rfl
@[simp] theorem sendFirst_plen (bs : List Byte) (s : State) : (sendFirst bs s).plen = s.plen := rfl
@[simp] theorem sendFirst_eopen (bs : List Byte) (s : State) : (sendFirst bs s).eopen = s.eopen := rfl
@[simp] theorem sendFirst_held (bs : List Byte) (s : State) : (sendFirst bs s).held = (bs.drop 1).head? := rfl
@[simp] theorem sendFirst_lastOut (bs : List Byte) (s : State) : (sendFirst bs s).lastOut = s.lastOut := rfl
@[simp] theorem sendFirst_inbox (bs : List Byte) (s : State) : (sendFirst bs s).inbox = s.inbox := rfl
@[simp] theorem sendFirst_outputs (bs : List Byte) (s : State) : (sendFirst bs s).outputs = s.outputs := rfl
@[simp] theorem sendFirst_outbound (bs : List Byte) (s : State) : (sendFirst bs s).outbound = s.outbound := rfl
@[simp] theorem sendFirst_sent (bs : List Byte) (s : State) : (sendFirst bs s).sent = s.sent ++ bs.take 1 := rfl
@[simp] theorem sendFirst_reads (bs : List Byte) (s : State) : (sendFirst bs s).reads = s.reads := rfl
@[simp] theorem sendFirst_samples (bs : List Byte) (s : State) : (sendFirst bs s).samples = s.samples := rfl
@[simp] theorem sendFirst_draws (bs : List Byte) (s : State) : (sendFirst bs s).draws = s.draws := rfl

@[simp] theorem sample_maxFrame (d : DecPins) (e : EncPins) (s : State) : (sample d e s).maxFrame = s.maxFrame := rfl
@[simp] theorem sample_dstate (d : DecPins) (e : EncPins) (s : State) : (sample d e s).dstate = s.dstate := rfl
@[simp] theorem sample_dlen (d : DecPins) (e : EncPins) (s : State) : (sample d e s).dlen = s.dlen := rfl
@[simp] theorem sample_dbuf (d : DecPins) (e : EncPins) (s : State) : (sample d e s).dbuf = s.dbuf := rfl
@[simp] theorem sample_pvalid (d : DecPins) (e : EncPins) (s : State) : (sample d e s).pvalid = s.pvalid := rfl
@[simp] theorem sample_plen (d : DecPins) (e : EncPins) (s : State) : (sample d e s).plen = s.plen := rfl
@[simp] theorem sample_eopen (d : DecPins) (e : EncPins) (s : State) : (sample d e s).eopen = s.eopen := rfl
@[simp] theorem sample_held (d : DecPins) (e : EncPins) (s : State) : (sample d e s).held = s.held := rfl
@[simp] theorem sample_lastOut (d : DecPins) (e : EncPins) (s : State) : (sample d e s).lastOut = s.lastOut := rfl
@[simp] theorem sample_inbox (d : DecPins) (e : EncPins) (s : State) : (sample d e s).inbox = s.inbox := rfl
@[simp] theorem sample_outputs (d : DecPins) (e : EncPins) (s : State) : (sample d e s).outputs = s.outputs := rfl
@[simp] theorem sample_outbound (d : DecPins) (e : EncPins) (s : State) : (sample d e s).outbound = s.outbound := rfl
@[simp] theorem sample_sent (d : DecPins) (e : EncPins) (s : State) : (sample d e s).sent = s.sent := rfl
@[simp] theorem sample_reads (d : DecPins) (e : EncPins) (s : State) : (sample d e s).reads = s.reads := rfl
@[simp] theorem sample_samples (d : DecPins) (e : EncPins) (s : State) : (sample d e s).samples = s.samples ++ [s.portSample d e] := rfl
@[simp] theorem sample_draws (d : DecPins) (e : EncPins) (s : State) : (sample d e s).draws = s.draws + 2 := rfl

@[simp] theorem withInput_maxFrame (x : Input) (s : State) : (withInput x s).maxFrame = s.maxFrame := rfl
@[simp] theorem withInput_dstate (x : Input) (s : State) : (withInput x s).dstate = s.dstate := rfl
@[simp] theorem withInput_dlen (x : Input) (s : State) : (withInput x s).dlen = s.dlen := rfl
@[simp] theorem withInput_dbuf (x : Input) (s : State) : (withInput x s).dbuf = s.dbuf := rfl
@[simp] theorem withInput_pvalid (x : Input) (s : State) : (withInput x s).pvalid = s.pvalid := rfl
@[simp] theorem withInput_plen (x : Input) (s : State) : (withInput x s).plen = s.plen := rfl
@[simp] theorem withInput_eopen (x : Input) (s : State) : (withInput x s).eopen = s.eopen := rfl
@[simp] theorem withInput_held (x : Input) (s : State) : (withInput x s).held = s.held := rfl
@[simp] theorem withInput_lastOut (x : Input) (s : State) : (withInput x s).lastOut = s.lastOut := rfl
@[simp] theorem withInput_inbox (x : Input) (s : State) : (withInput x s).inbox = x :: s.inbox := rfl
@[simp] theorem withInput_outputs (x : Input) (s : State) : (withInput x s).outputs = s.outputs := rfl
@[simp] theorem withInput_outbound (x : Input) (s : State) : (withInput x s).outbound = s.outbound := rfl
@[simp] theorem withInput_sent (x : Input) (s : State) : (withInput x s).sent = s.sent := rfl
@[simp] theorem withInput_reads (x : Input) (s : State) : (withInput x s).reads = s.reads := rfl
@[simp] theorem withInput_samples (x : Input) (s : State) : (withInput x s).samples = s.samples := rfl
@[simp] theorem withInput_draws (x : Input) (s : State) : (withInput x s).draws = s.draws := rfl

end Sys2Proof.Machine.State
end

