-- ==== Sys2Proof/Laws/Exec.lean ====
section
/-! SUPPORT. What each shared operation and each meaning can answer, said once. -/

namespace Sys2Proof.Machine

@[simp] theorem andThen_next (s : State) (k : State → Out) : andThen (.next s) k = k s := rfl
@[simp] theorem andThen_fault (f : Fault) (k : State → Out) : andThen (.fault f) k = .fault f := rfl
@[simp] theorem andThen_refused (r : Refusal) (k : State → Out) :
    andThen (.refused r) k = .refused r := rfl

theorem andThen_eq_next {o : Out} {k : State → Out} {t : State} (h : andThen o k = .next t) :
    ∃ s, o = .next s ∧ k s = .next t := by
  cases o with
  | next s => exact ⟨s, rfl, h⟩
  | fault f => simp at h
  | refused r => simp at h

theorem andThen_assoc (o : Out) (k l : State → Out) :
    andThen (andThen o k) l = andThen o (fun s => andThen (k s) l) := by
  cases o <;> rfl

theorem whenSelected_pos {c : Prop} [Decidable c] (h : c) (o : Out) : whenSelected c o = o := by
  simp [whenSelected, h]

theorem whenSelected_neg {c : Prop} [Decidable c] (h : ¬c) (o : Out) :
    whenSelected c o = .refused .notSelected := by simp [whenSelected, h]

theorem whenSelected_eq_next {c : Prop} [Decidable c] {o : Out} {t : State}
    (h : whenSelected c o = .next t) : c ∧ o = .next t := by
  by_cases hc : c
  · exact ⟨hc, by rwa [whenSelected_pos hc] at h⟩
  · rw [whenSelected_neg hc] at h; cases h

/-- The state an append that fits leaves (41_decoder R92). -/
def State.appended (v : Byte) (s : State) : State :=
  ((s.closeWindow.store v).toDState .normal).report .incomplete .none

theorem append_of_lt {v : Byte} {s : State} (h : s.dlen < s.maxFrame) :
    append v s = .next (s.appended v) := by simp [append, h, State.appended]

theorem append_of_eq {v : Byte} {s : State} (h : s.dlen = s.maxFrame) :
    append v s = .next (s.raiseSignal .frameOverflow) := by simp [append, h]

theorem append_of_gt {v : Byte} {s : State} (h : s.maxFrame < s.dlen) :
    append v s = .fault (.noSuchCell s.dlen) := by
  have h1 : ¬ s.dlen < s.maxFrame := by omega
  have h2 : ¬ s.dlen = s.maxFrame := by omega
  simp [append, h1, h2]

/-- Everything an append can answer as a next state. -/
theorem append_eq_next {v : Byte} {s t : State} (h : append v s = .next t) :
    (s.dlen < s.maxFrame ∧ t = s.appended v) ∨
      (s.dlen = s.maxFrame ∧ t = s.raiseSignal .frameOverflow) := by
  rcases Nat.lt_trichotomy s.dlen s.maxFrame with hl | he | hg
  · rw [append_of_lt hl] at h; cases h; exact .inl ⟨hl, rfl⟩
  · rw [append_of_eq he] at h; cases h; exact .inr ⟨he, rfl⟩
  · rw [append_of_gt hg] at h; cases h

@[simp] theorem appended_dbuf (v : Byte) (s : State) :
    (s.appended v).dbuf = Memory.write s.dbuf s.dlen v := rfl
@[simp] theorem appended_dlen (v : Byte) (s : State) : (s.appended v).dlen = s.dlen + 1 := rfl
@[simp] theorem appended_dstate (v : Byte) (s : State) : (s.appended v).dstate = .normal := rfl
@[simp] theorem appended_pvalid (v : Byte) (s : State) : (s.appended v).pvalid = false := rfl
@[simp] theorem appended_maxFrame (v : Byte) (s : State) :
    (s.appended v).maxFrame = s.maxFrame := rfl
@[simp] theorem appended_lastOut (v : Byte) (s : State) :
    (s.appended v).lastOut = some ⟨.incomplete, .none⟩ := rfl

/-- Everything a meaning can answer as a next state: the operation is selected, and the next
state is the one its rule gives (41_decoder R86 to R96, 42_encoder R114 to R116). -/
theorem exec_eq_next {i : Instr} {s t : State} (h : exec i s = .next t) :
    (i = .decEndEmpty ∧ s.dstate = .normal ∧ s.dlen = 0 ∧
        t = (s.closeWindow.toDState .normal).report .incomplete .none) ∨
    (i = .decEndFrame ∧ s.dstate = .normal ∧ s.dlen ≠ 0 ∧
        t = ((s.openWindow.clearBuffer).toDState .normal).report (.frameComplete s.dlen) .none) ∨
    (i = .decEsc ∧ s.dstate = .normal ∧
        t = (s.closeWindow.toDState .escaping).report .incomplete .none) ∨
    (∃ b, i = .decLit b ∧ s.dstate = .normal ∧ b ≠ END ∧ b ≠ ESC ∧ append b s = .next t) ∨
    (i = .decEscEnd ∧ s.dstate = .escaping ∧ append END s = .next t) ∨
    (i = .decEscEsc ∧ s.dstate = .escaping ∧ append ESC s = .next t) ∨
    (∃ b, i = .decBadEsc b ∧ s.dstate = .escaping ∧ b ≠ ESC_END ∧ b ≠ ESC_ESC ∧
        t = s.raiseSignal .invalidEscapeSequence) ∨
    (i = .decReset ∧ t = s.resetDecoder) ∨
    (i = .encSof ∧ s.eopen = false ∧ t = (s.emit [END]).setOpen true) ∨
    (i = .encByteEnd ∧ s.eopen = true ∧ t = s.emit (esc END)) ∨
    (i = .encByteEsc ∧ s.eopen = true ∧ t = s.emit (esc ESC)) ∨
    (∃ b, i = .encByteLit b ∧ s.eopen = true ∧ b ≠ END ∧ b ≠ ESC ∧ t = s.emit (esc b)) ∨
    (i = .encEof ∧ s.eopen = true ∧ t = (s.emit [END]).setOpen false) := by
  cases i with
  | decEndEmpty =>
    obtain ⟨hc, ht⟩ := whenSelected_eq_next h
    cases ht
    simp_all
  | decEndFrame =>
    obtain ⟨hc, ht⟩ := whenSelected_eq_next h
    cases ht
    simp_all
  | decEsc =>
    obtain ⟨hc, ht⟩ := whenSelected_eq_next h
    cases ht
    simp_all
  | decLit b =>
    obtain ⟨hc, ht⟩ := whenSelected_eq_next h
    simp_all [Instr.wf]
  | decEscEnd =>
    obtain ⟨hc, ht⟩ := whenSelected_eq_next h
    simp_all
  | decEscEsc =>
    obtain ⟨hc, ht⟩ := whenSelected_eq_next h
    simp_all
  | decBadEsc b =>
    obtain ⟨hc, ht⟩ := whenSelected_eq_next h
    cases ht
    simp_all [Instr.wf]
  | decReset => cases h; simp
  | encSof =>
    simp only [exec, execEncSof] at h
    split at h <;> simp_all
  | encByteEnd =>
    simp only [exec, execEncByteEnd, emitOpen] at h
    split at h <;> simp_all
  | encByteEsc =>
    simp only [exec, execEncByteEsc, emitOpen] at h
    split at h <;> simp_all
  | encByteLit b =>
    obtain ⟨hc, ht⟩ := whenSelected_eq_next h
    simp only [emitOpen] at ht
    split at ht <;> simp_all [Instr.wf]
  | encEof =>
    simp only [exec, execEncEof] at h
    split at h <;> simp_all

/-- A performed request was decoded and its operation run. -/
theorem perform_eq_next {r : Request} {s t : State} (h : perform r s = .next t) :
    ∃ i, decode s.selector r = .ok i ∧ exec i s = .next t := by
  unfold perform at h
  split at h
  · exact ⟨_, ‹_›, h⟩
  · cases h

/-- Everything the decoder does at an edge without `rst`, where it goes on (20_memory R51). -/
theorem decEdge_eq_next {p : DecPins} {s t : State} (h : decEdge p s = .next t) :
    (∃ c, perform (.dec c) s = .next t) ∨ t = { s with lastOut := none } := by
  unfold decEdge at h
  split_ifs at h
  · exact .inl ⟨_, h⟩
  · exact .inl ⟨_, h⟩
  · cases h; exact .inr rfl

/-- Everything the encoder does at an edge without `rst`, where it goes on (42_encoder R121). -/
theorem encEdge_eq_next {p : EncPins} {s t : State} (h : encEdge p s = .next t) :
    (t = s ∧ (p.outReady = false ∨ s.held = none ∧ presentedOp p = none)) ∨
    (p.outReady = true ∧ ∃ x, s.held = some x ∧ t = s.sendHeld x) ∨
    (p.outReady = true ∧ s.held = none ∧ ∃ o u, presentedOp p = some o ∧
      perform (.enc o) s = .next u ∧ t = u.sendFirst (emission o)) := by
  unfold encEdge at h
  split_ifs at h with hr
  · split at h
    · cases h; exact .inr (.inl ⟨hr, _, ‹_›, rfl⟩)
    · split at h
      · obtain ⟨u, hu, h⟩ := andThen_eq_next h
        cases h
        exact .inr (.inr ⟨hr, ‹_›, _, u, ‹_›, hu, rfl⟩)
      · cases h; exact .inl ⟨rfl, .inr ⟨‹_›, ‹_›⟩⟩
  · cases h; exact .inl ⟨rfl, .inl (by simpa using hr)⟩

/-- Everything one edge does, where it goes on (20_memory R51, R52). -/
theorem clockEdge_eq_next {rst : Bool} {d : DecPins} {e : EncPins} {s t : State}
    (h : clockEdge rst d e s = .next t) :
    (rst = true ∧ t = (s.sample d e).hardReset) ∨
      (rst = false ∧ ∃ u, decEdge d (s.sample d e) = .next u ∧ encEdge e u = .next t) := by
  unfold clockEdge at h
  split_ifs at h with hr
  · cases h; exact .inl ⟨hr, rfl⟩
  · exact .inr ⟨by simpa using hr, andThen_eq_next h⟩

/-- `perform` of a decoder call is the meaning of the case the call selects. -/
theorem consume_eq_exec (b : Byte) (s : State) :
    consume b s = exec (decodeConsume s.selector b) s := rfl

/-- The seven cases of `consume(b)` and what each answers (41_decoder R85). -/
theorem consume_cases (b : Byte) (s : State) :
    (s.dstate = .normal ∧ b = END ∧ s.dlen = 0 ∧
      consume b s = .next ((s.closeWindow.toDState .normal).report .incomplete .none)) ∨
    (s.dstate = .normal ∧ b = END ∧ s.dlen ≠ 0 ∧
      consume b s = .next (((s.openWindow.clearBuffer).toDState .normal).report
        (.frameComplete s.dlen) .none)) ∨
    (s.dstate = .normal ∧ b = ESC ∧
      consume b s = .next ((s.closeWindow.toDState .escaping).report .incomplete .none)) ∨
    (s.dstate = .normal ∧ b ≠ END ∧ b ≠ ESC ∧ consume b s = append b s) ∨
    (s.dstate = .escaping ∧ b = ESC_END ∧ consume b s = append END s) ∨
    (s.dstate = .escaping ∧ b = ESC_ESC ∧ consume b s = append ESC s) ∨
    (s.dstate = .escaping ∧ b ≠ ESC_END ∧ b ≠ ESC_ESC ∧
      consume b s = .next (s.raiseSignal .invalidEscapeSequence)) := by
  rw [consume_eq_exec]
  cases hd : s.dstate with
  | normal =>
    by_cases h1 : b = END
    · by_cases h2 : s.dlen = 0 <;>
        simp [decodeConsume, State.selector, hd, h1, h2, exec, execDecEndEmpty, execDecEndFrame,
          whenSelected]
    · by_cases h2 : b = ESC <;>
        simp [decodeConsume, State.selector, hd, h1, h2, exec, execDecEsc, execDecLit,
          whenSelected, Instr.wf]
  | escaping =>
    by_cases h1 : b = ESC_END
    · simp [decodeConsume, State.selector, hd, h1, exec, execDecEscEnd, whenSelected]
    · by_cases h2 : b = ESC_ESC <;>
        simp [decodeConsume, State.selector, hd, h1, h2, exec, execDecEscEsc, execDecBadEsc,
          whenSelected, Instr.wf]

/-- The three cases of `esc` (42_encoder R110). -/
theorem esc_cases (b : Byte) :
    (b = END ∧ esc b = [ESC, ESC_END]) ∨ (b = ESC ∧ esc b = [ESC, ESC_ESC]) ∨
      (b ≠ END ∧ b ≠ ESC ∧ esc b = [b]) := by
  unfold esc
  split_ifs <;> simp_all

@[simp] theorem performAll_nil (s : State) : performAll [] s = .next s := rfl
@[simp] theorem performAll_cons (r : Request) (rs : List Request) (s : State) :
    performAll (r :: rs) s = andThen (perform r s) (performAll rs) := rfl

@[simp] theorem consumeSeq_nil (s : State) : consumeSeq [] s = .next s := rfl
@[simp] theorem consumeSeq_cons (b : Byte) (bs : List Byte) (s : State) :
    consumeSeq (b :: bs) s = andThen (consume b s) (consumeSeq bs) := rfl

theorem performAll_append (xs ys : List Request) (s : State) :
    performAll (xs ++ ys) s = andThen (performAll xs s) (performAll ys) := by
  induction xs generalizing s with
  | nil => rfl
  | cons r xs ih =>
    simp only [List.cons_append, performAll_cons, andThen_assoc]
    congr 1
    funext t
    exact ih t

end Sys2Proof.Machine
end

