-- ==== Sys2Proof/Laws/PerInstr.lean ====
section
/-! SUPPORT. Per-constructor facts about the operations as syntax. -/

namespace Sys2Proof.Laws.RowTakesItsOperation

/-- The row of a well-formed operation takes that operation's request under every selector that
meets what the row asks (30_encoding R65, R66, R73). -/
def Statement (i : Instr) : Prop :=
  i.wf = true → ∀ c : Selector, i.row.takes (i.selectorIn c) (encode i) = true

theorem decEndEmpty : Statement .decEndEmpty := fun _ _ => rfl
theorem decEndFrame : Statement .decEndFrame := fun _ _ => rfl
theorem decEsc : Statement .decEsc := fun _ c => by cases c; rfl
theorem decLit (b : Byte) : Statement (.decLit b) := fun h c => by
  simpa [Instr.wf, Instr.row, Row.takes, Row.takesByte, Row.condHolds, Instr.selectorIn, encode,
    END, ESC] using h
theorem decEscEnd : Statement .decEscEnd := fun _ c => by cases c; rfl
theorem decEscEsc : Statement .decEscEsc := fun _ c => by cases c; rfl
theorem decBadEsc (b : Byte) : Statement (.decBadEsc b) := fun h c => by
  simpa [Instr.wf, Instr.row, Row.takes, Row.takesByte, Row.condHolds, Instr.selectorIn, encode,
    ESC_END, ESC_ESC] using h
theorem decReset : Statement .decReset := fun _ _ => rfl
theorem encSof : Statement .encSof := fun _ _ => rfl
theorem encByteEnd : Statement .encByteEnd := fun _ _ => rfl
theorem encByteEsc : Statement .encByteEsc := fun _ _ => rfl
theorem encByteLit (b : Byte) : Statement (.encByteLit b) := fun h _ => by
  simpa [Instr.wf, Instr.row, Row.takes, Row.takesByte, encode, END, ESC] using h
theorem encEof : Statement .encEof := fun _ _ => rfl

end Sys2Proof.Laws.RowTakesItsOperation
end

