-- ==== Sys2Proof/Tests/Slice0.lean ====
section
/-! SUPPORT. The model's own tests: well-formedness, decoding, one step of each operation with the
values of 95_test_vectors section 2, and, for every statement with hypotheses, a state that meets
them. -/

namespace Sys2Proof.Tests

open Sys2Proof Sys2Proof.Machine

/-- The start state of 95_test_vectors 2.5: `MAX_FRAME = 4`, `dbuf` = `11 22 33 44`. -/
def st (d : DState) (n : Nat) : State :=
  { State.powerOn 4 with
    dstate := d, dlen := n, dbuf := [(0, 0x11#8), (1, 0x22#8), (2, 0x33#8), (3, 0x44#8)] }

/-- The start state of 95_test_vectors 2.4. -/
def en (o : Bool) : State := { State.powerOn 4 with eopen := o }

/-- `s` with one input pending. -/
def pend (x : Input) (s : State) : State := { s with inbox := [x] }

def nextOf : Out → Option State
  | .next s => some s
  | .fault _ => none
  | .refused _ => none

def refusalOf : Out → Option Refusal
  | .next _ => none
  | .fault _ => none
  | .refused r => some r

/-- What a row of 95_test_vectors 2.5 gives. -/
structure OpRow where
  dstate : DState
  dlen : Nat
  cells : List Byte
  pvalid : Bool
  plen : Nat
  out : Option DecOut
  deriving DecidableEq, Repr

def row (o : Out) : Option OpRow :=
  (nextOf o).map fun s => ⟨s.dstate, s.dlen, s.dbuf.map Prod.snd, s.pvalid, s.plen, s.lastOut⟩

/-- What a row of 95_test_vectors 2.4 gives: bytes emitted, `eopen`. -/
def encRow (o : Out) : Option (List Byte × Bool) := (nextOf o).map fun s => (s.outbound, s.eopen)

/-! ### Well-formedness -/

theorem test_wf_lit_refuses_end : (Instr.decLit 0xC0#8).wf = false := by decide
theorem test_wf_lit_refuses_esc : (Instr.decLit 0xDB#8).wf = false := by decide
theorem test_wf_lit_admits_esc_end : (Instr.decLit 0xDC#8).wf = true := by decide
theorem test_wf_badEsc_refuses_esc_end : (Instr.decBadEsc 0xDC#8).wf = false := by decide
theorem test_wf_badEsc_refuses_esc_esc : (Instr.decBadEsc 0xDD#8).wf = false := by decide
theorem test_wf_badEsc_admits_end : (Instr.decBadEsc 0xC0#8).wf = true := by decide
theorem test_wf_encLit_refuses_end : (Instr.encByteLit 0xC0#8).wf = false := by decide
theorem test_wf_encLit_refuses_esc : (Instr.encByteLit 0xDB#8).wf = false := by decide

/-! ### Decoding: the rows of 30_encoding R65 and R66, byte by byte -/

theorem test_decode_endEmpty :
    (decode ⟨.normal, true⟩ (.dec (.consume 0b11000000#8))).toOption = some .decEndEmpty := by decide
theorem test_decode_endFrame :
    (decode ⟨.normal, false⟩ (.dec (.consume 0b11000000#8))).toOption = some .decEndFrame := by
  decide
theorem test_decode_esc :
    (decode ⟨.normal, true⟩ (.dec (.consume 0b11011011#8))).toOption = some .decEsc := by decide
theorem test_decode_lit :
    (decode ⟨.normal, false⟩ (.dec (.consume 0b11000001#8))).toOption =
      some (.decLit 0b11000001#8) := by decide
theorem test_decode_escEnd :
    (decode ⟨.escaping, true⟩ (.dec (.consume 0b11011100#8))).toOption = some .decEscEnd := by decide
theorem test_decode_escEsc :
    (decode ⟨.escaping, true⟩ (.dec (.consume 0b11011101#8))).toOption = some .decEscEsc := by decide
theorem test_decode_badEsc :
    (decode ⟨.escaping, true⟩ (.dec (.consume 0b11011110#8))).toOption =
      some (.decBadEsc 0b11011110#8) := by decide
theorem test_decode_reset :
    (decode ⟨.escaping, false⟩ (.dec .reset)).toOption = some .decReset := by decide
theorem test_decode_sof :
    (decode ⟨.normal, true⟩ (.enc (decodeOpKind 0b00#2 0#8))).toOption = some .encSof := by decide
theorem test_decode_byteEnd :
    (decode ⟨.normal, true⟩ (.enc (decodeOpKind 0b01#2 0b11000000#8))).toOption =
      some .encByteEnd := by decide
theorem test_decode_byteEsc :
    (decode ⟨.normal, true⟩ (.enc (decodeOpKind 0b01#2 0b11011011#8))).toOption =
      some .encByteEsc := by decide
theorem test_decode_byteLit :
    (decode ⟨.normal, true⟩ (.enc (decodeOpKind 0b01#2 0b11011100#8))).toOption =
      some (.encByteLit 0b11011100#8) := by decide
theorem test_decode_eof :
    (decode ⟨.normal, true⟩ (.enc (decodeOpKind 0b10#2 0#8))).toOption = some .encEof := by decide
theorem test_decode_kind3 :
    (decode ⟨.normal, true⟩ (.enc (decodeOpKind 0b11#2 0#8))).toOption = none := by decide
theorem test_table_word_esc_end : decodeTableWord 8 0xDC = some .decEscEnd := by decide
theorem test_table_word_runs_from_reset :
    row (step (State.reset.withFetchWord 8 0xDC)) =
      some ⟨.normal, 1, [0xC0#8], false, 0, some ⟨.incomplete, .none⟩⟩ := by decide
theorem test_unesc :
    (unesc 0xDC#8, unesc 0xDD#8, unesc 0xC0#8) = (some 0xC0#8, some 0xDB#8, none) := by decide
theorem test_unesc_undoes_esc :
    ((esc 0xC0#8)[1]?.bind unesc, (esc 0xDB#8)[1]?.bind unesc) = (some 0xC0#8, some 0xDB#8) := by
  decide

/-! ### One step of each operation: 95_test_vectors 2.5 (O), X, 2.4 (B), 2.3 (E) -/

theorem test_O1 : row (exec .decEndEmpty (st .normal 0)) =
    some ⟨.normal, 0, [0x11#8, 0x22#8, 0x33#8, 0x44#8], false, 0, some ⟨.incomplete, .none⟩⟩ := by
  decide
theorem test_O3 : row (exec .decEndFrame (st .normal 4)) =
    some ⟨.normal, 0, [0x11#8, 0x22#8, 0x33#8, 0x44#8], true, 4,
      some ⟨.frameComplete 4, .none⟩⟩ := by decide
theorem test_O5 : row (exec .decEsc (st .normal 4)) =
    some ⟨.escaping, 4, [0x11#8, 0x22#8, 0x33#8, 0x44#8], false, 0,
      some ⟨.incomplete, .none⟩⟩ := by decide
theorem test_O7 : row (exec (.decLit 0x55#8) (st .normal 3)) =
    some ⟨.normal, 4, [0x11#8, 0x22#8, 0x33#8, 0x55#8], false, 0,
      some ⟨.incomplete, .none⟩⟩ := by decide
theorem test_O8 : row (exec (.decLit 0x55#8) (st .normal 4)) =
    some ⟨.normal, 0, [0x11#8, 0x22#8, 0x33#8, 0x44#8], false, 0,
      some ⟨.incomplete, .frameOverflow⟩⟩ := by decide
theorem test_O12 : row (exec .decEscEnd (st .escaping 3)) =
    some ⟨.normal, 4, [0x11#8, 0x22#8, 0x33#8, 0xC0#8], false, 0,
      some ⟨.incomplete, .none⟩⟩ := by decide
theorem test_O13 : row (exec .decEscEnd (st .escaping 4)) =
    some ⟨.normal, 0, [0x11#8, 0x22#8, 0x33#8, 0x44#8], false, 0,
      some ⟨.incomplete, .frameOverflow⟩⟩ := by decide
theorem test_O14 : row (exec .decEscEsc (st .escaping 0)) =
    some ⟨.normal, 1, [0xDB#8, 0x22#8, 0x33#8, 0x44#8], false, 0,
      some ⟨.incomplete, .none⟩⟩ := by decide
theorem test_O16 : row (exec .decEscEsc (st .escaping 4)) =
    some ⟨.normal, 0, [0x11#8, 0x22#8, 0x33#8, 0x44#8], false, 0,
      some ⟨.incomplete, .frameOverflow⟩⟩ := by decide
theorem test_O19 : row (consume 0xDB#8 (st .escaping 2)) =
    some ⟨.normal, 0, [0x11#8, 0x22#8, 0x33#8, 0x44#8], false, 0,
      some ⟨.incomplete, .invalidEscapeSequence⟩⟩ := by decide
theorem test_O20 : row (exec (.decBadEsc 0xDE#8) (st .escaping 4)) =
    some ⟨.normal, 0, [0x11#8, 0x22#8, 0x33#8, 0x44#8], false, 0,
      some ⟨.incomplete, .invalidEscapeSequence⟩⟩ := by decide
theorem test_X3 : row (exec .decReset (st .escaping 1)) =
    some ⟨.normal, 0, [0x11#8, 0x22#8, 0x33#8, 0x44#8], false, 0, none⟩ := by decide
theorem test_X4 : row (exec .decReset { st .normal 0 with pvalid := true, plen := 2 }) =
    some ⟨.normal, 0, [0x11#8, 0x22#8, 0x33#8, 0x44#8], false, 2, none⟩ := by decide

theorem test_B1 : encRow (exec .encSof (en false)) = some ([0xC0#8], true) := by decide
theorem test_B2 : encRow (exec (.encByteLit 0x41#8) (en true)) = some ([0x41#8], true) := by decide
theorem test_B3 : encRow (exec .encByteEnd (en true)) = some ([0xDB#8, 0xDC#8], true) := by decide
theorem test_B4 : encRow (exec .encByteEsc (en true)) = some ([0xDB#8, 0xDD#8], true) := by decide
theorem test_B5 : encRow (exec (.encByteLit 0xDC#8) (en true)) = some ([0xDC#8], true) := by decide
theorem test_B7 : encRow (exec .encEof (en true)) = some ([0xC0#8], false) := by decide
theorem test_B10 : refusalOf (exec (.encByteLit 0x41#8) (en false)) = some .noMessageOpen := by
  decide
theorem test_B11 : refusalOf (exec .encEof (en false)) = some .noMessageOpen := by decide
theorem test_B12 : refusalOf (exec .encSof (en true)) = some .messageAlreadyOpen := by decide

/-- E1, E4, E5 (DOC0's S1 and S2 are E4 and E5) and E11 of 95_test_vectors 2.3. -/
theorem test_encode_message :
    encodeMessage [] = [0xC0#8, 0xC0#8] ∧
    encodeMessage [0xC0#8] = [0xC0#8, 0xDB#8, 0xDC#8, 0xC0#8] ∧
    encodeMessage [0xDB#8] = [0xC0#8, 0xDB#8, 0xDD#8, 0xC0#8] ∧
    encodeMessage [0x01#8, 0xC0#8, 0xDB#8, 0xDC#8, 0xDD#8, 0xFF#8] =
      [0xC0#8, 0x01#8, 0xDB#8, 0xDC#8, 0xDB#8, 0xDD#8, 0xDC#8, 0xDD#8, 0xFF#8, 0xC0#8] := by
  decide

/-- The payload after O3 (10_state R28), and none once the window is closed. -/
theorem test_payload :
    ({ st .normal 0 with pvalid := true, plen := 2 } : State).payload = some [0x11#8, 0x22#8] ∧
    (st .normal 0).payload = none := by decide
theorem test_read_in_window :
    (nextOf (step (pend (.read 1) { st .normal 0 with pvalid := true, plen := 2 }))).map
      (fun s => (s.reads, s.draws)) = some ([0x22#8], 0) := by decide
theorem test_read_outside_draws :
    (nextOf (step (pend (.read 2) { st .normal 0 with pvalid := true, plen := 2 }))).map
      (fun s => (s.reads.length, s.draws)) = some (1, 1) := by decide

/-! ### Ports: 20_memory R51, 42_encoder R121 -/

def quietDec : DecPins := ⟨false, false, 0x00#8, 0⟩
def quietEnc : EncPins := ⟨false, 0#2, 0x00#8, false⟩

/-- `clr` beats `in_valid`: the byte is discarded. -/
theorem test_edge_clr_discards_byte :
    row (step (pend (.edge false ⟨true, true, 0x55#8, 0⟩ quietEnc) (st .normal 2))) =
      some ⟨.normal, 0, [0x11#8, 0x22#8, 0x33#8, 0x44#8], false, 0, none⟩ := by decide
/-- `rst` resets decoder and encoder, and beats `in_valid`, a held byte and an operation. -/
theorem test_edge_rst_resets_both :
    (nextOf (step (pend (.edge true ⟨false, true, 0x55#8, 0⟩ ⟨true, 1#2, 0x41#8, true⟩)
      { st .escaping 2 with eopen := true, held := some 0xDC#8, plen := 2 }))).map
      (fun s => (s.dstate, s.dlen, s.plen, s.eopen, s.held)) =
      some (.normal, 0, 0, false, none) := by decide
/-- An escaping `ENC.BYTE` sends 0xDB and holds 0xDC; the next edge sends the held byte and takes no
operation. -/
theorem test_edge_escape_first_half :
    (nextOf (step (pend (.edge false quietDec ⟨true, 1#2, 0xC0#8, true⟩) (en true)))).map
      (fun s => (s.sent, s.held, s.outbound)) =
      some ([0xDB#8], some 0xDC#8, [0xDB#8, 0xDC#8]) := by decide
theorem test_edge_escape_second_half :
    (nextOf (step (pend (.edge false quietDec ⟨true, 2#2, 0x00#8, true⟩)
      { en true with held := some 0xDC#8 }))).map
      (fun s => (s.sent, s.held, s.eopen)) = some ([0xDC#8], none, true) := by decide
theorem test_edge_kind3_refused :
    refusalOf (step (pend (.edge false quietDec ⟨true, 3#2, 0x00#8, true⟩) (en true))) =
      some .reservedOpKind := by decide
theorem test_lenw : (lenw 1, lenw 2, lenw 4, lenw 7) = (1, 2, 3, 3) := by decide

/-! ### States that meet the hypotheses of each statement -/

theorem witness_DecodeAndEncodeAgree :
    (Instr.decLit 0xDC#8).wf = true ∧
      decode ⟨.normal, true⟩ (.dec (.consume 0xDC#8)) = .ok (.decLit 0xDC#8) := ⟨by decide, rfl⟩
theorem witness_OperationMapCoversEachByteOnce :
    (Instr.decBadEsc 0xC0#8).wf = true ∧ encode (.decBadEsc 0xC0#8) = .dec (.consume 0xC0#8) ∧
      (Instr.decBadEsc 0xC0#8).row.takes ⟨.escaping, false⟩ (.dec (.consume 0xC0#8)) = true := by
  decide
theorem witness_OnlyReservedOpKindIsRejected :
    ∀ x, EncOp.byte 0x41#8 = .byte x → x = 0x41#8 := by simp
theorem witness_EscapesSplitInOneWay :
    (0xC1#8 : Byte) ≠ 0xC0#8 ∧ (0xC1#8 : Byte) ≠ 0xDB#8 ∧ esc 0xC0#8 <+: esc 0xC0#8 := by decide
theorem witness_StepRunsDecodedOperation :
    (pend (.op (.dec (.consume 0xC0#8))) (st .normal 0)).inbox =
        [.op (.dec (.consume 0xC0#8))] ∧
      decode (pend (.op (.dec (.consume 0xC0#8))) (st .normal 0)).selector
        (.dec (.consume 0xC0#8)) = .ok .decEndEmpty := ⟨rfl, rfl⟩
theorem witness_IdleStepHoldsTheState : (st .escaping 1).inbox = [] := rfl
theorem witness_HostErrorsAreRefused :
    (pend (.op (.enc .kind3)) (en true)).inbox = .op (.enc .kind3) :: [] ∧
      (pend (.overlap (.consume 0x01#8) .reset) (st .normal 0)).inbox =
        .overlap (.consume 0x01#8) .reset :: [] := ⟨rfl, rfl⟩
theorem witness_WholeMessageIsEncoded :
    (pend (.encode [0xC0#8]) (en true)).inbox = .encode [0xC0#8] :: [] := rfl
theorem witness_EndOnEmptyBufferIsIgnored :
    (st .normal 0).dstate = .normal ∧ (st .normal 0).dlen = 0 := by decide
theorem witness_EndCompletesTheFrame :
    (st .normal 4).dstate = .normal ∧ (st .normal 4).dlen ≠ 0 := by decide
theorem witness_EscEntersEscaping : (st .normal 4).dstate = .normal := by decide
theorem witness_LiteralIsAppended :
    (st .normal 3).dstate = .normal ∧ (0xDC#8 : Byte) ≠ END ∧ (0xDC#8 : Byte) ≠ ESC ∧
      (st .normal 3).dlen < (st .normal 3).maxFrame := by decide
theorem witness_EscapedByteIsAppended :
    (st .escaping 3).dstate = .escaping ∧ (st .escaping 3).dlen < (st .escaping 3).maxFrame := by
  decide
theorem witness_AppendOnFullBufferOverflows :
    (st .normal 4).dlen = (st .normal 4).maxFrame ∧ (st .normal 4).dstate = .normal ∧
      (0x55#8 : Byte) ≠ END ∧ (0x55#8 : Byte) ≠ ESC ∧
      (st .escaping 4).dlen = (st .escaping 4).maxFrame ∧
      (st .escaping 4).dstate = .escaping := by decide
theorem witness_BadEscapeDiscardsTheFrame :
    (st .escaping 4).dstate = .escaping ∧ (0xC0#8 : Byte) ≠ ESC_END ∧ (0xC0#8 : Byte) ≠ ESC_ESC := by
  decide
theorem witness_SofOpensAMessage : (en false).eopen = false := by decide
theorem witness_MessageByteIsEscaped :
    (en true).eopen = true ∧ (0xDC#8 : Byte) ≠ END ∧ (0xDC#8 : Byte) ≠ ESC := by decide
theorem witness_EofClosesTheMessage : (en true).eopen = true := by decide
theorem witness_EncoderOutOfProtocolIsRefused :
    (en true).eopen = true ∧ (en false).eopen = false ∧ (0x41#8 : Byte) ≠ END ∧
      (0x41#8 : Byte) ≠ ESC := by decide
theorem witness_UnselectedOperationIsRefused :
    ((Instr.decEsc).wf && (Instr.decEsc).row.takes (st .escaping 0).selector (encode .decEsc)) =
      false := by decide
theorem witness_DecoderTakesEveryByte : (st .normal 4).dlen ≤ (st .normal 4).maxFrame := by decide
theorem witness_EscapingOnlyAfterEscInNormal :
    (∃ t u, consume 0xDB#8 (st .normal 4) = .next t ∧ consume 0xDB#8 t = .next u) ∧
      ∃ t, exec .decEsc (st .normal 4) = .next t ∧ (st .normal 4).dstate = .normal ∧
        t.dstate = .escaping := ⟨⟨_, _, rfl, rfl⟩, _, rfl, rfl, rfl⟩
theorem witness_SignalsAreRaisedExactly :
    (st .escaping 4).dlen ≤ (st .escaping 4).maxFrame := by decide
theorem witness_ErrorsClearAndGoOn :
    ∃ t o, consume 0x42#8 (st .escaping 1) = .next t ∧ t.lastOut = some o ∧ o.signal ≠ .none :=
  ⟨_, _, rfl, rfl, by decide⟩
theorem witness_StoredBytesHaveTheirProvenance :
    ∃ t, exec .decEscEnd (st .escaping 0) = .next t ∧ Memory.read t.dbuf 0 = some 0xC0#8 ∧
      Memory.read (st .escaping 0).dbuf 0 ≠ some 0xC0#8 := ⟨_, rfl, rfl, by decide⟩
theorem witness_OperationsLeaveTheRestAlone :
    (∃ t, exec .encByteEnd (en true) = .next t ∧ encode .encByteEnd = .enc (.byte END)) ∧
      ∃ t, exec .decEscEnd (st .escaping 0) = .next t ∧
        encode .decEscEnd = .dec (.consume ESC_END) ∧ Instr.decEscEnd ≠ .decEndFrame ∧
        (1 : Nat) ≠ (st .escaping 0).dlen ∧
        ∃ u, exec .decEscEnd (st .escaping 4) = .next u ∧
          (st .escaping 4).dlen = (st .escaping 4).maxFrame :=
  ⟨⟨_, rfl, rfl⟩, _, rfl, rfl, by decide, by decide, _, rfl, rfl⟩
theorem witness_WindowOpensOnlyAtFrameComplete :
    ∃ t, encode .decEndFrame = .dec (.consume END) ∧ exec .decEndFrame (st .normal 4) = .next t :=
  ⟨_, rfl, rfl⟩
theorem witness_FaultOnlyPastTheBuffer :
    exec (.decLit 0x55#8) (st .normal 5) = .fault (.noSuchCell 5) := rfl
theorem witness_EveryStepKeepsTheInvariant :
    (pend (.op (.dec (.consume 0x55#8))) (st .normal 4)).Inv ∧
      ∃ t, step (pend (.op (.dec (.consume 0x55#8))) (st .normal 4)) = .next t :=
  ⟨by decide, _, rfl⟩
theorem witness_inv_with_open_window :
    ({ st .normal 0 with pvalid := true, plen := 4, held := some 0xDC#8 } : State).Inv := by decide
theorem witness_PowerOnHasTheInvariant : 1 ≤ 1 := by decide
theorem witness_SoundStatesNeverFault : (st .escaping 4).Inv := by decide
theorem witness_StepRefusesOnlyHostErrors :
    step (pend (.op (.enc .sof)) (en true)) = .refused .messageAlreadyOpen ∧
      step (pend (.op (.enc .eof)) (en false)) = .refused .noMessageOpen ∧
      step (pend (.edge false quietDec ⟨true, 1#2, 0x41#8, true⟩) (en false)) =
        .refused .noMessageOpen ∧
      step (pend (.op (.enc .kind3)) (en true)) = .refused .reservedOpKind ∧
      step (pend (.overlap .reset .reset) (en true)) = .refused .overlappingCalls :=
  ⟨rfl, rfl, rfl, rfl, rfl⟩
theorem witness_StepTakesOneInputAndKeepsMaxFrame :
    ∃ t, step (pend (.op (.dec .reset)) (st .escaping 1)) = .next t := ⟨_, rfl⟩
theorem witness_HardwareResetValues :
    (pend .hardReset (st .escaping 1)).inbox = .hardReset :: [] := rfl
theorem witness_ConsumeIgnoresStaleCells :
    SameToDecoder (st .normal 2) { st .normal 2 with dbuf := [(0, 0x11#8), (1, 0x22#8)], plen := 3 } ∧
      (st .normal 2).dlen ≤ (st .normal 2).maxFrame := by
  unfold SameToDecoder
  decide
theorem witness_EventsIgnoreStaleCells :
    SameToDecoder { st .normal 0 with pvalid := true, plen := 1 }
        { st .normal 0 with pvalid := true, plen := 1, dbuf := [(0, 0x11#8)] } ∧
      (st .normal 0).dlen ≤ (st .normal 0).maxFrame := by
  unfold SameToDecoder
  decide
theorem witness_PayloadReadsAreBounded :
    (pend (.read 3) { st .normal 0 with pvalid := true, plen := 4 }).inbox = .read 3 :: [] ∧
      3 < ({ st .normal 0 with pvalid := true, plen := 4 } : State).plen ∧
      Memory.read (st .normal 0).dbuf 3 = some 0x44#8 ∧
      ¬((st .normal 0).pvalid = true ∧ 3 < (st .normal 0).plen) := ⟨rfl, by decide, rfl, by decide⟩
theorem witness_CountersFitTheirWidth : (st .normal 4).Inv := by decide
theorem witness_PortCodesAreLegal :
    ({ st .normal 0 with lastOut := some ⟨.frameComplete 4, .none⟩ } : State).Inv ∧
      ({ st .normal 0 with lastOut := some ⟨.frameComplete 4, .none⟩ } : State).resKind = 1#1 ∧
      (st .normal 0).Inv ∧ (st .normal 0).resKind = 0#1 := by decide
theorem witness_StreamFormEmitsTheEncodedMessage : (en false).eopen = false := by decide
theorem witness_EncodedBodyIsEscaped : ([ESC, ESC_END] : List Byte)[0]? = some ESC := by decide
theorem witness_ChunkingIsInvisible :
    (∃ t, consumeSeq [0xC0#8, 0x01#8, 0xDB#8] (State.powerOn 4) = .next t) ∧
      (st .escaping 2).inbox = [] := ⟨⟨_, rfl⟩, rfl⟩
theorem witness_EncodedMessageDecodesFromAnyState :
    ([0xC0#8, 0x01#8, 0xDB#8, 0x02#8] : List Byte).length ≤ (st .escaping 3).maxFrame := by decide
theorem witness_ConcatenatedMessagesDecodeInOrder :
    (State.powerOn 2).Fresh ∧
      ∀ m ∈ ([[0xAA#8], [], [0xC0#8, 0xDB#8]] : List (List Byte)),
        m.length ≤ (State.powerOn 2).maxFrame := by decide
theorem witness_LongMessageOverflowsAndLeavesItsTail : (State.powerOn 4).Fresh := by decide
theorem witness_OverflowIsRecovered :
    (State.powerOn 1).Fresh ∧
      ([0x07#8, 0xDC#8] : List Byte).length = (State.powerOn 1).maxFrame + 1 ∧
      (∀ b ∈ ([0x07#8, 0xDC#8] : List Byte), b ≠ END ∧ b ≠ ESC) ∧
      ([0xDB#8] : List Byte) ≠ [] ∧ ([0xDB#8] : List Byte).length ≤ (State.powerOn 1).maxFrame := by
  decide
theorem witness_TailOfMalformedFrameIsReported :
    (State.powerOn 1).Fresh ∧ ([0x41#8] : List Byte).length ≤ (State.powerOn 1).maxFrame ∧
      ([0x43#8] : List Byte) ≠ [] ∧ (0xC0#8 : Byte) ≠ ESC_END ∧ (0xC0#8 : Byte) ≠ ESC_ESC := by
  decide
theorem witness_EdgeResetClearsTheBlock :
    (pend (.edge true quietDec quietEnc) (st .escaping 2)).inbox =
      .edge true quietDec quietEnc :: [] := rfl
theorem witness_DecoderEdgePriority :
    (pend (.edge false ⟨true, true, 0x55#8, 0⟩ ⟨true, 1#2, 0x41#8, true⟩) (en true)).inbox =
        .edge false ⟨true, true, 0x55#8, 0⟩ ⟨true, 1#2, 0x41#8, true⟩ :: [] ∧
      (en true).dlen ≤ (en true).maxFrame ∧
      (en true).askedAtEdge ⟨true, 1#2, 0x41#8, true⟩ = some (.byte 0x41#8) ∧
      (en true).inProtocol (.byte 0x41#8) = true ∧
      (st .normal 4).dlen ≤ (st .normal 4).maxFrame ∧
      (st .normal 4).askedAtEdge quietEnc = none := by decide
theorem witness_EncoderSendsOneByteAnEdge :
    (pend (.edge false ⟨false, true, 0x55#8, 0⟩ ⟨true, 0#2, 0x00#8, true⟩) (en false)).inbox =
        .edge false ⟨false, true, 0x55#8, 0⟩ ⟨true, 0#2, 0x00#8, true⟩ :: [] ∧
      (en false).dlen ≤ (en false).maxFrame ∧ (en false).held = none ∧
      (en false).askedAtEdge ⟨true, 0#2, 0x00#8, true⟩ = some .sof ∧
      (en false).inProtocol .sof = true ∧
      ({ en true with held := some 0xDC#8 } : State).askedAtEdge ⟨true, 0#2, 0x00#8, true⟩ =
        none := by decide
theorem witness_EdgeOutOfProtocolIsRefused :
    (pend (.edge false quietDec ⟨true, 3#2, 0x00#8, true⟩) (en true)).inbox =
        .edge false quietDec ⟨true, 3#2, 0x00#8, true⟩ :: [] ∧
      (en true).dlen ≤ (en true).maxFrame ∧
      (en true).askedAtEdge ⟨true, 3#2, 0x00#8, true⟩ = some .kind3 ∧
      (en true).inProtocol .kind3 = false ∧
      (en true).askedAtEdge ⟨true, 0#2, 0x00#8, true⟩ = some .sof ∧
      (en true).inProtocol .sof = false ∧
      (en false).askedAtEdge ⟨true, 2#2, 0x00#8, true⟩ = some .eof ∧
      (en false).inProtocol .eof = false ∧
      (en false).askedAtEdge ⟨true, 1#2, 0xC0#8, true⟩ = some (.byte 0xC0#8) ∧
      (en false).inProtocol (.byte 0xC0#8) = false := by decide
theorem witness_PortsShowTheState :
    ∃ t, step (pend (.edge false ⟨false, true, 0x55#8, 3⟩ ⟨true, 1#2, 0xC0#8, false⟩)
        { st .normal 0 with pvalid := true, plen := 4, eopen := true }) = .next t ∧
      (emission (decodeOpKind 1#2 0xC0#8))[0]? = some 0xDB#8 := ⟨_, rfl, by decide⟩
theorem witness_SerialiserKeepsTheStream :
    ∃ t, clockEdge false quietDec ⟨true, 1#2, 0xC0#8, true⟩
        { en true with
          sent := [0xC0#8, 0xDB#8], held := some 0xDD#8
          outbound := [0xC0#8, 0xDB#8, 0xDD#8] } = .next t := ⟨_, rfl⟩
theorem witness_InstancesShareNothing :
    ∃ ns, stepInstance 1 [st .normal 0, pend (.op (.dec .reset)) (st .escaping 1)] = .next ns :=
  ⟨_, rfl⟩

end Sys2Proof.Tests
end

/-! SUPPORT. The counter width `LENW` (00_scope R9): `lenw n` is the number of binary digits of `n`,
so `2 ^ (lenw n - 1) ≤ n < 2 ^ lenw n` for every `n` but 0. -/

namespace Sys2Proof.Machine

/-- A counter bounded by `MAX_FRAME`, which may be a full buffer, fits `LENW` bits. -/
theorem lt_two_pow_lenw_of_le {k n : Nat} (h : k ≤ n) : k < 2 ^ lenw n :=
  h.trans_lt Nat.lt_log2_self

/-- `LENW - 1` bits do not hold `MAX_FRAME` itself, which `dlen` and `plen` may reach. -/
theorem two_pow_lenw_sub_one_le {n : Nat} (h : 1 ≤ n) : 2 ^ (lenw n - 1) ≤ n :=
  Nat.log2_self_le (Nat.one_le_iff_ne_zero.mp h)

/-- Settles O42: the invariant bounds both counters by `MAX_FRAME` and makes `MAX_FRAME` positive. -/
theorem countersFitTheirWidth : Obligations.CountersFitTheirWidth := by
  rintro s ⟨hpos, -, ⟨hdlen, -⟩, hplen, -⟩
  exact ⟨lt_two_pow_lenw_of_le hdlen, lt_two_pow_lenw_of_le hplen, two_pow_lenw_sub_one_le hpos⟩

end Sys2Proof.Machine

/-! SUPPORT. What a decoder operation, an encoder operation, a payload read and a step can answer,
said once each, with what that answer leaves alone. The statements about the state rest on these. -/

namespace Sys2Proof.Machine

/-! ### Updates -/

@[simp] theorem appended_plen (v : Byte) (s : State) : (s.appended v).plen = s.plen := rfl

/-- A read in the window returns the cell and changes the record of reads only (10_state R28). -/
theorem readPayload_of_mem_window {s : State} {i : Nat} {v : Byte} (hp : s.pvalid = true)
    (hi : i < s.plen) (hv : Memory.read s.dbuf i = some v) :
    s.readPayload i = { s with reads := s.reads ++ [v] } := by
  simp [State.readPayload, State.payloadByte, hp, hi, hv]

/-- A read outside the window draws its byte (10_state R28, 93 U4). -/
theorem readPayload_of_not_mem_window {s : State} {i : Nat} (h : ¬(s.pvalid = true ∧ i < s.plen)) :
    s.readPayload i =
      { s with reads := s.reads ++ [Config.freeByte s.draws], draws := s.draws + 1 } := by
  simp [State.readPayload, State.payloadByte, h]

/-- Whatever it returns, a payload read changes the record of reads and the draw counter only. -/
theorem readPayload_eq (i : Nat) (s : State) :
    ∃ bs n, s.readPayload i = { s with reads := bs, draws := n } := by
  unfold State.readPayload
  split
  · exact ⟨_, _, rfl⟩
  · exact ⟨_, _, rfl⟩

/-! ### What an operation answers -/

/-- The next states of the decoder operation `i`, by what they do to buffer and window: the frame is
complete, the decoder moves on with nothing stored, a byte is stored, a signal is raised, or the
decoder is reset (41_decoder R86 to R96). -/
inductive DecoderAnswer (i : Instr) (s : State) : State → Prop where
  | completed (hi : i = .decEndFrame) (hd : s.dstate = .normal) (hn : s.dlen ≠ 0) :
    DecoderAnswer i s
      (((s.openWindow.clearBuffer).toDState .normal).report (.frameComplete s.dlen) .none)
  | moved (d : DState) (hi : i ≠ .decEndFrame) :
    DecoderAnswer i s ((s.closeWindow.toDState d).report .incomplete .none)
  | stored (v : Byte) (hi : i = .decLit v ∨ i = .decEscEnd ∨ i = .decEscEsc)
    (hlt : s.dlen < s.maxFrame) : DecoderAnswer i s (s.appended v)
  | signalled (g : Signal) (hi : i ≠ .decEndFrame) : DecoderAnswer i s (s.raiseSignal g)
  | reset (hi : i ≠ .decEndFrame) : DecoderAnswer i s s.resetDecoder

theorem decoderAnswer_of_append {i : Instr} {v : Byte} {s t : State}
    (hi : i = .decLit v ∨ i = .decEscEnd ∨ i = .decEscEsc) (h : append v s = .next t) :
    DecoderAnswer i s t := by
  rcases append_eq_next h with ⟨hlt, rfl⟩ | ⟨-, rfl⟩
  · exact .stored v hi hlt
  · exact .signalled _ (by rintro rfl; simp at hi)

/-- Everything a decoder operation can answer as a next state. -/
theorem decoderAnswer_of_exec {i : Instr} {c : DecCall} {s t : State} (hc : encode i = .dec c)
    (h : exec i s = .next t) : DecoderAnswer i s t := by
  rcases exec_eq_next h with ⟨rfl, -, -, rfl⟩ | ⟨rfl, hd, hn, rfl⟩ | ⟨rfl, -, rfl⟩ |
    ⟨b, rfl, -, -, -, ha⟩ | ⟨rfl, -, ha⟩ | ⟨rfl, -, ha⟩ | ⟨b, rfl, -, -, -, rfl⟩ | ⟨rfl, rfl⟩ |
    ⟨rfl, -⟩ | ⟨rfl, -⟩ | ⟨rfl, -⟩ | ⟨b, rfl, -⟩ | ⟨rfl, -⟩
  · exact .moved _ nofun
  · exact .completed rfl hd hn
  · exact .moved _ nofun
  · exact decoderAnswer_of_append (.inl rfl) ha
  · exact decoderAnswer_of_append (.inr (.inl rfl)) ha
  · exact decoderAnswer_of_append (.inr (.inr rfl)) ha
  · exact .signalled _ nofun
  · exact .reset nofun
  all_goals cases hc

/-- Everything an encoder operation can answer as a next state: its emission and, for `ENC.SOF` and
`ENC.EOF`, another `eopen` (42_encoder R114 to R116). -/
theorem encoderAnswer_of_exec {i : Instr} {o : EncOp} {s t : State} (hc : encode i = .enc o)
    (h : exec i s = .next t) : ∃ v, t = (s.emit (emission o)).setOpen v := by
  rcases exec_eq_next h with ⟨rfl, -⟩ | ⟨rfl, -⟩ | ⟨rfl, -⟩ | ⟨b, rfl, -⟩ | ⟨rfl, -⟩ | ⟨rfl, -⟩ |
    ⟨b, rfl, -⟩ | ⟨rfl, -⟩ | ⟨rfl, -, rfl⟩ | ⟨rfl, -, rfl⟩ | ⟨rfl, -, rfl⟩ | ⟨b, rfl, -, -, -, rfl⟩ |
    ⟨rfl, -, rfl⟩
  all_goals cases hc
  · exact ⟨true, rfl⟩
  · exact ⟨s.eopen, rfl⟩
  · exact ⟨s.eopen, rfl⟩
  · exact ⟨s.eopen, rfl⟩
  · exact ⟨false, rfl⟩

/-! ### Frames -/

namespace DecoderAnswer

variable {i : Instr} {s t : State}

theorem sameHost (h : DecoderAnswer i s t) : SameHost s t := by
  cases h <;> exact ⟨rfl, rfl, rfl, rfl, rfl⟩

theorem sameEncoder (h : DecoderAnswer i s t) : SameEncoder s t := by
  cases h <;> exact ⟨rfl, rfl, rfl, rfl⟩

/-- Only cell `dlen` can be written (41_decoder R92). -/
theorem read_eq (h : DecoderAnswer i s t) {a : Nat} (ha : a ≠ s.dlen) :
    Memory.read t.dbuf a = Memory.read s.dbuf a := by
  cases h with
  | stored v _ _ => exact Memory.read_write_ne s.dbuf v ha
  | _ => rfl

/-- The buffer is wholly as before where the operation is no append, or the append overflows. -/
theorem dbuf_eq (h : DecoderAnswer i s t)
    (hi : i = .decEndEmpty ∨ i = .decEndFrame ∨ i = .decEsc ∨ (∃ b, i = .decBadEsc b) ∨
      i = .decReset ∨ s.dlen = s.maxFrame) : t.dbuf = s.dbuf := by
  cases h with
  | stored v happ hlt =>
    have hne : s.dlen ≠ s.maxFrame := hlt.ne
    rcases happ with rfl | rfl | rfl <;> simp [hne] at hi
  | _ => rfl

theorem plen_eq (h : DecoderAnswer i s t) (hi : i ≠ .decEndFrame) : t.plen = s.plen := by
  cases h with
  | completed hc _ _ => exact absurd hc hi
  | _ => rfl

theorem dlen_le (h : DecoderAnswer i s t) (hle : s.dlen ≤ s.maxFrame) : t.dlen ≤ t.maxFrame := by
  cases h with
  | moved _ _ => exact hle
  | stored _ _ hlt => exact hlt
  | _ => exact Nat.zero_le _

/-- A *FrameComplete* opens the window on the bytes accumulated, and every other answer closes it
(10_state R27). -/
theorem window (h : DecoderAnswer i s t) :
    (i = .decEndFrame ∧ t.pvalid = true ∧ t.plen = s.dlen ∧
        t.lastOut = some ⟨.frameComplete s.dlen, .none⟩) ∨
      (i ≠ .decEndFrame ∧ t.pvalid = false ∧ ∀ n, t.lastOut ≠ some ⟨.frameComplete n, .none⟩) := by
  cases h with
  | completed hi _ _ => exact .inl ⟨hi, rfl, rfl, rfl⟩
  | moved _ hi => exact .inr ⟨hi, rfl, by simp⟩
  | stored v hi _ => exact .inr ⟨by rintro rfl; simp at hi, rfl, by simp⟩
  | signalled _ hi => exact .inr ⟨hi, rfl, by simp⟩
  | reset hi => exact .inr ⟨hi, rfl, by simp⟩

end DecoderAnswer

/-- No operation touches the configuration or the hosts' side (10_state R25, R32). -/
theorem sameHost_of_exec {i : Instr} {s t : State} (h : exec i s = .next t) : SameHost s t := by
  cases hi : encode i with
  | dec c => exact (decoderAnswer_of_exec hi h).sameHost
  | enc o =>
    obtain ⟨v, rfl⟩ := encoderAnswer_of_exec hi h
    exact ⟨rfl, rfl, rfl, rfl, rfl⟩

/-- Settles O29: the frames of the two kinds of answer. -/
theorem operationsLeaveTheRestAlone : Obligations.OperationsLeaveTheRestAlone := by
  intro i s t h
  refine ⟨sameHost_of_exec h, fun o ho => ?_, fun c hc => ?_⟩
  · obtain ⟨v, rfl⟩ := encoderAnswer_of_exec ho h
    exact ⟨⟨rfl, rfl, rfl, rfl, rfl, rfl, rfl⟩, rfl, rfl, rfl⟩
  · have ha := decoderAnswer_of_exec hc h
    exact ⟨ha.sameEncoder, fun _ => ha.read_eq, ha.dbuf_eq, ha.plen_eq⟩

/-- Settles O30: an answer either completes a frame or leaves the window closed. -/
theorem windowOpensOnlyAtFrameComplete : Obligations.WindowOpensOnlyAtFrameComplete := by
  intro i s t c hc h
  rcases (decoderAnswer_of_exec hc h).window with ⟨hi, hp, hl, ho⟩ | ⟨hi, hp, ho⟩
  · simp [hi, hp, hl, ho]
  · simp [hi, hp, ho]

end Sys2Proof.Machine

/-! SUPPORT. One induction over what a step is made of: a property kept by each operation of the
machine is kept by whatever input a step takes. -/

namespace Sys2Proof.Machine

/-- Taking an input is taking it from the queue and doing what it asks (20_memory R44). -/
theorem step_of_inbox {s : State} {x : Input} {rest : List Input} (h : s.inbox = x :: rest) :
    step s = takeInput x { s with inbox := rest } := by
  simp [step, h]

/-- `P` is kept by everything an input makes the machine do. -/
structure KeptByOperations (P : State → Prop) : Prop where
  operation : ∀ {i s t}, exec i s = .next t → P s → P t
  emit : ∀ {s} bs, P s → P (s.emit bs)
  readPayload : ∀ {s} i, P s → P (s.readPayload i)
  hardReset : ∀ {s}, P s → P s.hardReset
  sample : ∀ {s} d e, P s → P (s.sample d e)
  clearOut : ∀ {s : State}, P s → P { s with lastOut := none }
  sendHeld : ∀ {s} x, P s → P (s.sendHeld x)
  sendFirst : ∀ {s} o, P s → P (s.sendFirst (emission o))

namespace KeptByOperations

variable {P : State → Prop} {s t : State}

theorem of_perform (hP : KeptByOperations P) {r : Request} (h : perform r s = .next t)
    (hs : P s) : P t := by
  obtain ⟨i, -, hi⟩ := perform_eq_next h
  exact hP.operation hi hs

theorem of_decEdge (hP : KeptByOperations P) {d : DecPins} (h : decEdge d s = .next t)
    (hs : P s) : P t := by
  rcases decEdge_eq_next h with ⟨c, hc⟩ | rfl
  · exact hP.of_perform hc hs
  · exact hP.clearOut hs

theorem of_encEdge (hP : KeptByOperations P) {e : EncPins} (h : encEdge e s = .next t)
    (hs : P s) : P t := by
  rcases encEdge_eq_next h with ⟨rfl, -⟩ | ⟨-, x, -, rfl⟩ | ⟨-, -, o, u, -, hu, rfl⟩
  · exact hs
  · exact hP.sendHeld x hs
  · exact hP.sendFirst o (hP.of_perform hu hs)

theorem of_clockEdge (hP : KeptByOperations P) {rst : Bool} {d : DecPins} {e : EncPins}
    (h : clockEdge rst d e s = .next t) (hs : P s) : P t := by
  rcases clockEdge_eq_next h with ⟨-, rfl⟩ | ⟨-, u, hd, he⟩
  · exact hP.hardReset (hP.sample d e hs)
  · exact hP.of_encEdge he (hP.of_decEdge hd (hP.sample d e hs))

theorem of_takeInput (hP : KeptByOperations P) {x : Input} (h : takeInput x s = .next t)
    (hs : P s) : P t := by
  cases x with
  | op r => exact hP.of_perform h hs
  | encode m => cases h; exact hP.emit _ hs
  | read i => cases h; exact hP.readPayload i hs
  | hardReset => cases h; exact hP.hardReset hs
  | overlap c1 c2 => cases h
  | edge rst d e => exact hP.of_clockEdge h hs

/-- A step keeps `P` where `P` does not look at the queue the input is taken from. -/
theorem of_step (hP : KeptByOperations P)
    (hinbox : ∀ {s : State} rest, P s → P { s with inbox := rest })
    (h : step s = .next t) (hs : P s) : P t := by
  cases hq : s.inbox with
  | nil => simp only [step, hq] at h; cases h; exact hs
  | cons x rest => rw [step_of_inbox hq] at h; exact hP.of_takeInput h (hinbox rest hs)

end KeptByOperations

/-! ### Configuration and queue -/

/-- Nothing an input makes the machine do writes `MAX_FRAME` or the queue (10_state R25, R32). -/
theorem keptByOperations_maxFrame_inbox (n : Nat) (q : List Input) :
    KeptByOperations fun s => s.maxFrame = n ∧ s.inbox = q where
  operation h hs := by
    obtain ⟨hm, hq, -⟩ := sameHost_of_exec h
    rwa [hm, hq]
  emit _ hs := hs
  readPayload {s} i hs := by
    obtain ⟨bs, k, h⟩ := readPayload_eq i s
    rw [h]
    exact hs
  hardReset hs := hs
  sample _ _ hs := hs
  clearOut hs := hs
  sendHeld _ hs := hs
  sendFirst _ hs := hs

/-- Settles O36: the input is removed first, and nothing after that writes either field. -/
theorem stepTakesOneInputAndKeepsMaxFrame : Obligations.StepTakesOneInputAndKeepsMaxFrame := by
  intro s t h
  cases hq : s.inbox with
  | nil => simp only [step, hq] at h; cases h; exact ⟨rfl, hq⟩
  | cons x rest =>
    rw [step_of_inbox hq] at h
    exact (keptByOperations_maxFrame_inbox s.maxFrame rest).of_takeInput h ⟨rfl, rfl⟩

end Sys2Proof.Machine

/-! SUPPORT. The invariant of 10_state R34: it holds after power-on, and each update of the state
keeps it, under the condition that the operations using the update bring along. What an update does
not write is carried over by reduction (`exact h`). -/

namespace Sys2Proof.Machine

/-- The second byte of an emission, which the serialiser holds, is an escape code (42_encoder R110,
R121). -/
theorem escapeCode_of_mem_emission_tail {o : EncOp} {x : Byte}
    (h : x ∈ ((emission o).drop 1).head?.toList) : x = ESC_END ∨ x = ESC_ESC := by
  cases o with
  | byte b => rcases esc_cases b with ⟨-, he⟩ | ⟨-, he⟩ | ⟨-, -, he⟩ <;> simp_all [emission]
  | _ => simp [emission] at h

namespace State

theorem Inv.powerOn {n : Nat} (h : 1 ≤ n) : (powerOn n).Inv :=
  ⟨h, ⟨rfl, nofun⟩, ⟨Nat.zero_le _, nofun⟩, Nat.zero_le _, nofun, ⟨nofun, nofun⟩, nofun⟩

variable {s : State}

/-! ### Updates of the decoder -/

theorem Inv.closeWindow (h : s.Inv) : s.closeWindow.Inv := by
  obtain ⟨hpos, hbuf, hcnt, hpl, -, hrest⟩ := h
  exact ⟨hpos, hbuf, hcnt, hpl, nofun, hrest⟩

theorem Inv.clearBuffer (h : s.Inv) : s.clearBuffer.Inv := by
  obtain ⟨hpos, hbuf, -, hpl, hwin, hrest⟩ := h
  exact ⟨hpos, hbuf, ⟨Nat.zero_le _, nofun⟩, hpl, fun hp => ⟨rfl, (hwin hp).2⟩, hrest⟩

/-- With the window closed nothing depends on `dstate`. -/
theorem Inv.toDState (h : s.Inv) (hp : s.pvalid = false) (d : DState) : (s.toDState d).Inv := by
  obtain ⟨hpos, hbuf, hcnt, hpl, -, hrest⟩ := h
  exact ⟨hpos, hbuf, hcnt, hpl, fun hp' => absurd (hp.symm.trans hp') nofun, hrest⟩

/-- A store at cell `dlen` extends the written cells by that cell (20_memory R41, 41_decoder R92). -/
theorem Inv.store (h : s.Inv) (hp : s.pvalid = false) (hlt : s.dlen < s.maxFrame) (v : Byte) :
    (s.store v).Inv := by
  obtain ⟨hpos, ⟨hwf, hin⟩, ⟨-, hcells⟩, hpl, -, hrest⟩ := h
  have hcells' : (s.store v).CellsWritten (s.dlen + 1) := fun i hi => by
    by_cases hid : i = s.dlen
    · simp [hid]
    · simpa [Memory.read_write_ne s.dbuf v hid] using hcells i (by omega)
  exact ⟨hpos, ⟨Memory.write_wf _ _ hwf, Memory.write_lt hlt hin⟩, ⟨hlt, hcells'⟩, hpl,
    fun hp' => absurd (hp.symm.trans hp') nofun, hrest⟩

/-- The window opens on the accumulated cells, which are written (10_state R27). -/
theorem Inv.openWindow_clearBuffer_toDState (h : s.Inv) (hn : s.dlen ≠ 0) :
    ((s.openWindow.clearBuffer).toDState .normal).Inv := by
  obtain ⟨hpos, hbuf, ⟨hle, hcells⟩, -, -, hrest⟩ := h
  exact ⟨hpos, hbuf, ⟨Nat.zero_le _, nofun⟩, hle,
    fun _ => ⟨rfl, rfl, Nat.one_le_iff_ne_zero.mpr hn, hle, hcells⟩, hrest⟩

theorem Inv.report (h : s.Inv) {r : Result} {g : Signal}
    (hok : decOutOk s.maxFrame ⟨r, g⟩ = true) : (s.report r g).Inv := by
  obtain ⟨hpos, hbuf, hcnt, hpl, hwin, ⟨-, houts⟩, hheld⟩ := h
  refine ⟨hpos, hbuf, hcnt, hpl, hwin, ⟨by simpa using hok, fun o ho => ?_⟩, hheld⟩
  rcases List.mem_append.mp ho with ho | ho
  · exact houts o ho
  · rwa [List.mem_singleton.mp ho]

theorem Inv.clearOut (h : s.Inv) : ({ s with lastOut := none } : State).Inv := by
  obtain ⟨hpos, hbuf, hcnt, hpl, hwin, ⟨-, houts⟩, hheld⟩ := h
  exact ⟨hpos, hbuf, hcnt, hpl, hwin, ⟨nofun, houts⟩, hheld⟩

/-! ### Updates of both components -/

theorem Inv.hardReset (h : s.Inv) : s.hardReset.Inv := by
  obtain ⟨hpos, -, -, -, -, ⟨-, houts⟩, -⟩ := h
  exact ⟨hpos, ⟨rfl, nofun⟩, ⟨Nat.zero_le _, nofun⟩, Nat.zero_le _, nofun, ⟨nofun, houts⟩, nofun⟩

theorem Inv.withHeld (h : s.Inv) {x : Option Byte} (hx : ∀ y ∈ x.toList, y = ESC_END ∨ y = ESC_ESC)
    (bs : List Byte) : ({ s with sent := bs, held := x } : State).Inv := by
  obtain ⟨hpos, hbuf, hcnt, hpl, hwin, hout, -⟩ := h
  exact ⟨hpos, hbuf, hcnt, hpl, hwin, hout, hx⟩

theorem Inv.readPayload (h : s.Inv) (i : Nat) : (s.readPayload i).Inv := by
  obtain ⟨bs, n, heq⟩ := readPayload_eq i s
  rw [heq]
  exact h

/-! ### Operations -/

theorem Inv.of_decoderAnswer {i : Instr} {t : State} (h : s.Inv) (ha : DecoderAnswer i s t) :
    t.Inv := by
  cases ha with
  | completed _ _ hn =>
    have hout : decOutOk s.maxFrame ⟨.frameComplete s.dlen, .none⟩ = true := by
      obtain ⟨-, -, ⟨hle, -⟩, -⟩ := h
      simp [decOutOk, hle, Nat.one_le_iff_ne_zero.mpr hn]
    exact (h.openWindow_clearBuffer_toDState hn).report hout
  | moved d _ => exact (h.closeWindow.toDState rfl d).report rfl
  | stored v _ hlt => exact ((h.closeWindow.store rfl hlt v).toDState rfl .normal).report rfl
  | signalled g _ => exact (h.closeWindow.clearBuffer.toDState rfl .normal).report rfl
  | reset _ => exact (h.closeWindow.clearBuffer.toDState rfl .normal).clearOut

theorem Inv.of_exec {i : Instr} {t : State} (hx : exec i s = .next t) (h : s.Inv) : t.Inv := by
  cases hi : encode i with
  | dec c => exact h.of_decoderAnswer (decoderAnswer_of_exec hi hx)
  | enc o =>
    obtain ⟨v, rfl⟩ := encoderAnswer_of_exec hi hx
    exact h

end State

theorem keptByOperations_inv : KeptByOperations fun s => s.Inv where
  operation hx h := h.of_exec hx
  emit _ h := h
  readPayload i h := h.readPayload i
  hardReset h := h.hardReset
  sample _ _ h := h
  clearOut h := h.clearOut
  sendHeld _ h := h.withHeld (x := none) nofun _
  sendFirst _ h := h.withHeld (fun _ => escapeCode_of_mem_emission_tail) _

/-- Settles O33: nothing is accumulated, open, recorded or held after power-on. -/
theorem powerOnHasTheInvariant : Obligations.PowerOnHasTheInvariant :=
  ⟨fun _ => State.Inv.powerOn, State.Inv.powerOn (Nat.succ_pos _)⟩

/-- Settles O32: everything a step is made of keeps the invariant. -/
theorem everyStepKeepsTheInvariant : Obligations.EveryStepKeepsTheInvariant := by
  intro s t h hstep
  exact keptByOperations_inv.of_step (fun _ h => h) hstep h

end Sys2Proof.Machine

/-! SUPPORT. Reset and payload reads, by input and at an edge. -/

namespace Sys2Proof.Machine

/-- Settles O37: power-on has the values by definition, and so has what a hardware reset writes. -/
theorem hardwareResetValues : Obligations.HardwareResetValues := by
  refine ⟨?_, fun s rest hq => ?_⟩
  · rintro s rfl
    exact ⟨rfl, rfl, rfl, rfl, rfl, rfl, Memory.read_nil, Nat.succ_pos _⟩
  · rw [step_of_inbox hq]
    rfl

/-- Settles O41: the window is looked up in the state with the read already taken. -/
theorem payloadReadsAreBounded : Obligations.PayloadReadsAreBounded := by
  intro s i rest hq
  let s' : State := { s with inbox := rest }
  have hstep : step s = .next (s'.readPayload i) := step_of_inbox hq
  rw [hstep]
  refine ⟨fun v hp hi hv => ?_, fun hout => ⟨Config.freeByte s.draws, ?_⟩⟩
  · exact congrArg _ (readPayload_of_mem_window (s := s') hp hi hv)
  · exact congrArg _ (readPayload_of_not_mem_window (s := s') hout)

/-- Settles O54: `rst` goes before the other pins, so the edge is its sample and a hardware reset. -/
theorem edgeResetClearsTheBlock : Obligations.EdgeResetClearsTheBlock := by
  rintro s d e rest hq s0 rfl
  rw [step_of_inbox hq]
  rfl

end Sys2Proof.Machine

/-! SUPPORT. Stale cells (10_state R35, 41_decoder R102): `SameToDecoder` is a bisimulation for
`consume`. Each update keeps it, each of the seven cases of `consume` is made of those updates, and
two states it relates show the same payload. -/

namespace Sys2Proof.Machine

/-- Reading the same addresses of two buffers that agree on them gives the same bytes. -/
theorem mapM_read_congr {m n : Memory} {as : List Nat}
    (h : ∀ a ∈ as, Memory.read m a = Memory.read n a) :
    as.mapM (Memory.read m) = as.mapM (Memory.read n) := by
  induction as with
  | nil => rfl
  | cons a as ih =>
    obtain ⟨ha, has⟩ := List.forall_mem_cons.mp h
    simp only [List.mapM_cons, ha, ih has]

/-! ### The cases of `consume`, as equations -/

section Cases

variable {s : State} {b : Byte}

theorem consume_end_of_empty (hd : s.dstate = .normal) (hn : s.dlen = 0) :
    consume END s = .next ((s.closeWindow.toDState .normal).report .incomplete .none) := by
  simp [consume_eq_exec, decodeConsume, State.selector, exec, execDecEndEmpty, whenSelected, hd, hn]

theorem consume_end_of_nonempty (hd : s.dstate = .normal) (hn : s.dlen ≠ 0) :
    consume END s = .next (((s.openWindow.clearBuffer).toDState .normal).report
      (.frameComplete s.dlen) .none) := by
  simp [consume_eq_exec, decodeConsume, State.selector, exec, execDecEndFrame, whenSelected, hd, hn]

theorem consume_esc (hd : s.dstate = .normal) :
    consume ESC s = .next ((s.closeWindow.toDState .escaping).report .incomplete .none) := by
  simp [consume_eq_exec, decodeConsume, State.selector, exec, execDecEsc, whenSelected, hd]

theorem consume_literal (hd : s.dstate = .normal) (h1 : b ≠ END) (h2 : b ≠ ESC) :
    consume b s = append b s := by
  simp [consume_eq_exec, decodeConsume, State.selector, exec, execDecLit, whenSelected, Instr.wf,
    hd, h1, h2]

theorem consume_escEnd (hd : s.dstate = .escaping) : consume ESC_END s = append END s := by
  simp [consume_eq_exec, decodeConsume, State.selector, exec, execDecEscEnd, whenSelected, hd]

theorem consume_escEsc (hd : s.dstate = .escaping) : consume ESC_ESC s = append ESC s := by
  simp [consume_eq_exec, decodeConsume, State.selector, exec, execDecEscEsc, whenSelected, hd]

theorem consume_badEsc (hd : s.dstate = .escaping) (h1 : b ≠ ESC_END) (h2 : b ≠ ESC_ESC) :
    consume b s = .next (s.raiseSignal .invalidEscapeSequence) := by
  simp [consume_eq_exec, decodeConsume, State.selector, exec, execDecBadEsc, whenSelected, Instr.wf,
    hd, h1, h2]

end Cases

/-! ### The updates keep `SameToDecoder` -/

namespace SameToDecoder

variable {s t : State}

theorem closeWindow (h : SameToDecoder s t) : SameToDecoder s.closeWindow t.closeWindow := by
  obtain ⟨hm, hd, hn, -, hcells, -⟩ := h
  exact ⟨hm, hd, hn, rfl, hcells, nofun⟩

theorem clearBuffer (h : SameToDecoder s t) : SameToDecoder s.clearBuffer t.clearBuffer := by
  obtain ⟨hm, hd, -, hp, -, hwin⟩ := h
  exact ⟨hm, hd, rfl, hp, nofun, hwin⟩

theorem openWindow (h : SameToDecoder s t) : SameToDecoder s.openWindow t.openWindow := by
  obtain ⟨hm, hd, hn, -, hcells, -⟩ := h
  exact ⟨hm, hd, hn, rfl, hcells, fun _ => ⟨hn, hcells⟩⟩

theorem toDState (h : SameToDecoder s t) (d : DState) :
    SameToDecoder (s.toDState d) (t.toDState d) := by
  obtain ⟨hm, -, hrest⟩ := h
  exact ⟨hm, rfl, hrest⟩

theorem report (h : SameToDecoder s t) (r : Result) (g : Signal) :
    SameToDecoder (s.report r g) (t.report r g) := h

/-- A store writes the same cell, the first stale one, in both. -/
theorem store (h : SameToDecoder s t) (hp : s.pvalid = false) (v : Byte) :
    SameToDecoder (s.store v) (t.store v) := by
  obtain ⟨hm, hd, hn, hpt, hcells, -⟩ := h
  refine ⟨hm, hd, congrArg (· + 1) hn, hpt, fun i hi => ?_,
    fun hp' => absurd (hp.symm.trans hp') nofun⟩
  by_cases hid : i = s.dlen
  · simp [hid, ← hn]
  · have hlt : i < s.dlen := by simp at hi; omega
    simp [Memory.read_write, ← hn, hid, hcells i hlt]

theorem payload_eq (h : SameToDecoder s t) : s.payload = t.payload := by
  obtain ⟨-, -, -, hp, -, hwin⟩ := h
  unfold State.payload
  by_cases hps : s.pvalid = true
  · obtain ⟨hl, hcells⟩ := hwin hps
    rw [← hp, ← hl, if_pos hps, if_pos hps]
    exact mapM_read_congr fun i hi => hcells i (List.mem_range.mp hi)
  · rw [← hp, if_neg hps, if_neg hps]

theorem event_eq (h : SameToDecoder s t) (ho : s.lastOut = t.lastOut) : s.event = t.event := by
  simp only [State.event, ho, h.payload_eq]

end SameToDecoder

/-! ### One `consume`, and any number of them -/

/-- Both outcomes are next states, which look the same to the decoder and show the same outputs. -/
def SameAnswer (o p : Out) : Prop :=
  ∃ s t, o = .next s ∧ p = .next t ∧ SameToDecoder s t ∧ s.lastOut = t.lastOut

namespace SameToDecoder

variable {s t : State}

theorem sameAnswer_report (h : SameToDecoder s t) (r : Result) (g : Signal) :
    SameAnswer (.next (s.report r g)) (.next (t.report r g)) :=
  ⟨_, _, rfl, rfl, h.report r g, rfl⟩

theorem sameAnswer_raiseSignal (h : SameToDecoder s t) (g : Signal) :
    SameAnswer (.next (s.raiseSignal g)) (.next (t.raiseSignal g)) :=
  (h.closeWindow.clearBuffer.toDState .normal).sameAnswer_report .incomplete g

theorem sameAnswer_append (h : SameToDecoder s t) (hle : s.dlen ≤ s.maxFrame) (v : Byte) :
    SameAnswer (append v s) (append v t) := by
  have ⟨hm, _, hn, _⟩ := h
  rcases hle.lt_or_eq with hlt | heq
  · rw [append_of_lt hlt, append_of_lt (hm ▸ hn ▸ hlt)]
    exact ((h.closeWindow.store rfl v).toDState .normal).sameAnswer_report .incomplete .none
  · rw [append_of_eq heq, append_of_eq (hm ▸ hn ▸ heq)]
    exact h.sameAnswer_raiseSignal _

/-- The two states select the same case, and each case is made of updates that keep the relation. -/
theorem sameAnswer_consume (h : SameToDecoder s t) (hle : s.dlen ≤ s.maxFrame) (b : Byte) :
    SameAnswer (consume b s) (consume b t) := by
  have ⟨_, hdst, hn, _⟩ := h
  rcases consume_cases b s with ⟨hd, rfl, h0, hs⟩ | ⟨hd, rfl, h0, hs⟩ | ⟨hd, rfl, hs⟩ |
    ⟨hd, h1, h2, hs⟩ | ⟨hd, rfl, hs⟩ | ⟨hd, rfl, hs⟩ | ⟨hd, h1, h2, hs⟩ <;> rw [hs] <;>
    rw [hdst] at hd
  · rw [consume_end_of_empty hd (hn ▸ h0)]
    exact (h.closeWindow.toDState .normal).sameAnswer_report .incomplete .none
  · rw [consume_end_of_nonempty hd (hn ▸ h0), ← hn]
    exact (h.openWindow.clearBuffer.toDState .normal).sameAnswer_report _ .none
  · rw [consume_esc hd]
    exact (h.closeWindow.toDState .escaping).sameAnswer_report .incomplete .none
  · rw [consume_literal hd h1 h2]
    exact h.sameAnswer_append hle b
  · rw [consume_escEnd hd]
    exact h.sameAnswer_append hle END
  · rw [consume_escEsc hd]
    exact h.sameAnswer_append hle ESC
  · rw [consume_badEsc hd h1 h2]
    exact h.sameAnswer_raiseSignal _

end SameToDecoder

/-- `consume` keeps `dlen` within the buffer (43_stream_properties R131). -/
theorem dlen_le_of_consume {b : Byte} {s t : State} (h : consume b s = .next t)
    (hle : s.dlen ≤ s.maxFrame) : t.dlen ≤ t.maxFrame := by
  obtain ⟨i, hi, hx⟩ := perform_eq_next h
  cases hc : encode i with
  | dec c => exact (decoderAnswer_of_exec hc hx).dlen_le hle
  | enc o =>
    obtain ⟨v, rfl⟩ := encoderAnswer_of_exec hc hx
    exact hle

theorem events_cons_of_consume {b : Byte} {bs : List Byte} {s t : State}
    (h : consume b s = .next t) : events (b :: bs) s = t.event ++ events bs t := by
  simp only [events, h]

/-- Settles O38: the two answers, and the payloads they show. -/
theorem consumeIgnoresStaleCells : Obligations.ConsumeIgnoresStaleCells := by
  intro b s t h hle
  obtain ⟨s', t', hs, ht, hsame, hout⟩ := h.sameAnswer_consume hle b
  exact ⟨s', t', hs, ht, hsame, hout, hsame.payload_eq⟩

/-- Settles O39, by induction on the bytes: one `consume` gives the same event and leaves two states
of the same relation. -/
theorem eventsIgnoreStaleCells : Obligations.EventsIgnoreStaleCells := by
  intro bs
  induction bs with
  | nil => intros; rfl
  | cons b bs ih =>
    intro s t h hle
    obtain ⟨s', t', hs, ht, hsame, hout⟩ := h.sameAnswer_consume hle b
    rw [events_cons_of_consume hs, events_cons_of_consume ht, hsame.event_eq hout,
      ih s' t' hsame (dlen_le_of_consume hs hle)]

end Sys2Proof.Machine

/-! SUPPORT. What a host asks for by request: `perform` runs the meaning a request decodes to, which
is a meaning of the same component, and stops where the request names none. -/

namespace Sys2Proof.Machine

/-- What a request decodes to is an operation this request asks for (30_encoding R65, R66). -/
theorem encode_of_decode {c : Selector} {r : Request} {i : Instr} (h : decode c r = .ok i) :
    encode i = r := by
  rcases r with (b | _) | (_ | b | _ | _)
  · cases h
    unfold decodeConsume
    split <;> split_ifs <;> simp_all [encode]
  · cases h; rfl
  · cases h; rfl
  · cases h
    unfold decodeMessageByte
    split_ifs <;> simp_all [encode]
  · cases h; rfl
  · cases h

theorem perform_of_decode {r : Request} {i : Instr} {s : State} (h : decode s.selector r = .ok i) :
    perform r s = exec i s := by
  simp only [perform, h]

/-- Settles O6: the queue is not part of the selector. -/
theorem stepRunsDecodedOperation : Obligations.StepRunsDecodedOperation := by
  intro s r rest i hq hdec
  rw [step_of_inbox hq]
  exact perform_of_decode hdec

/-- Settles O8: neither input reaches a meaning. -/
theorem hostErrorsAreRefused : Obligations.HostErrorsAreRefused :=
  ⟨fun _ _ hq => step_of_inbox hq, fun _ _ _ _ hq => step_of_inbox hq⟩

/-! ### Faults -/

theorem append_eq_fault_iff {v : Byte} {s : State} {f : Fault} :
    append v s = .fault f ↔ s.maxFrame < s.dlen ∧ f = .noSuchCell s.dlen := by
  rcases Nat.lt_trichotomy s.dlen s.maxFrame with hlt | heq | hgt
  · simp [append_of_lt hlt, hlt.not_gt]
  · simp [append_of_eq heq, heq]
  · simp [append_of_gt hgt, hgt, eq_comm]

theorem whenSelected_eq_fault_iff {c : Prop} [Decidable c] {o : Out} {f : Fault} :
    whenSelected c o = .fault f ↔ c ∧ o = .fault f := by
  by_cases hc : c
  · rw [whenSelected_pos hc, and_iff_right hc]
  · rw [whenSelected_neg hc]
    simp [hc]

theorem emitOpen_ne_fault (bs : List Byte) (s : State) (f : Fault) : emitOpen bs s ≠ .fault f := by
  unfold emitOpen
  split_ifs <;> exact nofun

/-- A meaning faults where it is selected and the append it is faults. -/
theorem exec_eq_fault_iff {i : Instr} {s : State} {f : Fault} :
    exec i s = .fault f ↔
      (s.dstate = .normal ∧ ∃ b, i = .decLit b ∧ b ≠ END ∧ b ≠ ESC ∧ append b s = .fault f) ∨
        (s.dstate = .escaping ∧ i = .decEscEnd ∧ append END s = .fault f) ∨
        (s.dstate = .escaping ∧ i = .decEscEsc ∧ append ESC s = .fault f) := by
  cases i with
  | decLit b => simp [exec, execDecLit, whenSelected_eq_fault_iff, Instr.wf, and_assoc]
  | decEscEnd => simp [exec, execDecEscEnd, whenSelected_eq_fault_iff]
  | decEscEsc => simp [exec, execDecEscEsc, whenSelected_eq_fault_iff]
  | decEndEmpty => simp [exec, execDecEndEmpty, whenSelected_eq_fault_iff]
  | decEndFrame => simp [exec, execDecEndFrame, whenSelected_eq_fault_iff]
  | decEsc => simp [exec, execDecEsc, whenSelected_eq_fault_iff]
  | decBadEsc b => simp [exec, execDecBadEsc, whenSelected_eq_fault_iff]
  | decReset => simp [exec, execDecReset]
  | encSof => simp only [exec, execEncSof]; split_ifs <;> simp
  | encByteEnd => simp [exec, execEncByteEnd, emitOpen_ne_fault]
  | encByteEsc => simp [exec, execEncByteEsc, emitOpen_ne_fault]
  | encByteLit b => simp [exec, execEncByteLit, whenSelected_eq_fault_iff, emitOpen_ne_fault]
  | encEof => simp only [exec, execEncEof]; split_ifs <;> simp

/-- Settles O31: only an append faults, and it faults past the end of the buffer only. -/
theorem faultOnlyPastTheBuffer : Obligations.FaultOnlyPastTheBuffer := by
  intro i s f
  simp only [exec_eq_fault_iff, append_eq_fault_iff]
  constructor
  · rintro (⟨hd, b, hi, h1, h2, hgt, hf⟩ | ⟨hd, hi, hgt, hf⟩ | ⟨hd, hi, hgt, hf⟩)
    · exact ⟨hgt, hf, .inl ⟨hd, b, hi, h1, h2⟩⟩
    · exact ⟨hgt, hf, .inr ⟨hd, .inl hi⟩⟩
    · exact ⟨hgt, hf, .inr ⟨hd, .inr hi⟩⟩
  · rintro ⟨hgt, hf, ⟨hd, b, hi, h1, h2⟩ | ⟨hd, hi | hi⟩⟩
    · exact .inl ⟨hd, b, hi, h1, h2, hgt, hf⟩
    · exact .inr (.inl ⟨hd, hi, hgt, hf⟩)
    · exact .inr (.inr ⟨hd, hi, hgt, hf⟩)

end Sys2Proof.Machine

/-! SUPPORT. Byte sequences (20_memory R54, 41_decoder R98): consuming a concatenation is consuming
its parts in order, and so are its events. -/

namespace Sys2Proof.Machine

theorem andThen_next_right (o : Out) : andThen o .next = o := by
  cases o <;> rfl

theorem consumeSeq_append (xs ys : List Byte) (s : State) :
    consumeSeq (xs ++ ys) s = andThen (consumeSeq xs s) (consumeSeq ys) := by
  rw [consumeSeq, List.map_append]
  exact performAll_append _ _ s

theorem foldl_consumeSeq (chunks : List (List Byte)) (o : Out) :
    chunks.foldl (fun o c => andThen o (consumeSeq c)) o =
      andThen o (consumeSeq chunks.flatten) := by
  induction chunks generalizing o with
  | nil => exact (andThen_next_right o).symm
  | cons c cs ih =>
    calc (c :: cs).foldl (fun o c => andThen o (consumeSeq c)) o
        = andThen (andThen o (consumeSeq c)) (consumeSeq cs.flatten) := ih _
      _ = andThen o (fun s => andThen (consumeSeq c s) (consumeSeq cs.flatten)) :=
          andThen_assoc ..
      _ = andThen o (consumeSeq (c :: cs).flatten) := by
          simp only [List.flatten_cons, ← consumeSeq_append]

theorem events_append {xs ys : List Byte} {s t : State} (h : consumeSeq xs s = .next t) :
    events (xs ++ ys) s = events xs s ++ events ys t := by
  induction xs generalizing s with
  | nil => cases h; rfl
  | cons b xs ih =>
    obtain ⟨u, hb, hxs⟩ := andThen_eq_next h
    rw [List.cons_append, events_cons_of_consume hb, events_cons_of_consume hb, ih hxs,
      List.append_assoc]

theorem step_of_inbox_nil {s : State} (h : s.inbox = []) : step s = .next s := by
  simp only [step, h]

/-- Settles O47: the chunks are folded into their concatenation, the events split with the bytes,
and the gap between bytes is an idle step. -/
theorem chunkingIsInvisible : Obligations.ChunkingIsInvisible :=
  ⟨fun chunks s => foldl_consumeSeq chunks (.next s), fun _ _ _ _ => events_append,
    fun _ => step_of_inbox_nil⟩

end Sys2Proof.Machine

/-! SUPPORT. The two halves of a clock edge (20_memory R51, R52): each leaves the other component
and the hosts' side alone, and each goes on where its operation can be performed. -/

namespace Sys2Proof.Machine

theorem SameHost.refl (s : State) : SameHost s s := ⟨rfl, rfl, rfl, rfl, rfl⟩

theorem SameHost.trans {s t u : State} (h : SameHost s t) (h' : SameHost t u) : SameHost s u := by
  obtain ⟨h1, h2, h3, h4, h5⟩ := h
  obtain ⟨h1', h2', h3', h4', h5'⟩ := h'
  exact ⟨h1'.trans h1, h2'.trans h2, h3'.trans h3, h4'.trans h4, h5'.trans h5⟩

theorem SameDecoder.refl (s : State) : SameDecoder s s := ⟨rfl, rfl, rfl, rfl, rfl, rfl, rfl⟩

/-! ### What a half leaves alone -/

theorem sameHost_of_perform {r : Request} {s t : State} (h : perform r s = .next t) :
    SameHost s t := by
  obtain ⟨i, -, hi⟩ := perform_eq_next h
  exact sameHost_of_exec hi

theorem sameEncoder_of_perform {c : DecCall} {s t : State} (h : perform (.dec c) s = .next t) :
    SameEncoder s t := by
  obtain ⟨i, hdec, hi⟩ := perform_eq_next h
  exact (decoderAnswer_of_exec (encode_of_decode hdec) hi).sameEncoder

theorem sameDecoder_of_perform {o : EncOp} {s t : State} (h : perform (.enc o) s = .next t) :
    SameDecoder s t := by
  obtain ⟨i, hdec, hi⟩ := perform_eq_next h
  obtain ⟨v, rfl⟩ := encoderAnswer_of_exec (encode_of_decode hdec) hi
  exact SameDecoder.refl s

theorem sameHost_of_decEdge {d : DecPins} {s t : State} (h : decEdge d s = .next t) :
    SameHost s t := by
  rcases decEdge_eq_next h with ⟨c, hc⟩ | rfl
  · exact sameHost_of_perform hc
  · exact SameHost.refl s

theorem sameEncoder_of_decEdge {d : DecPins} {s t : State} (h : decEdge d s = .next t) :
    SameEncoder s t := by
  rcases decEdge_eq_next h with ⟨c, hc⟩ | rfl
  · exact sameEncoder_of_perform hc
  · exact ⟨rfl, rfl, rfl, rfl⟩

theorem sameHost_of_encEdge {e : EncPins} {s t : State} (h : encEdge e s = .next t) :
    SameHost s t := by
  rcases encEdge_eq_next h with ⟨rfl, -⟩ | ⟨-, x, -, rfl⟩ | ⟨-, -, o, u, -, hu, rfl⟩
  · exact SameHost.refl t
  · exact SameHost.refl s
  · exact sameHost_of_perform (t := u) hu

theorem sameDecoder_of_encEdge {e : EncPins} {s t : State} (h : encEdge e s = .next t) :
    SameDecoder s t := by
  rcases encEdge_eq_next h with ⟨rfl, -⟩ | ⟨-, x, -, rfl⟩ | ⟨-, -, o, u, -, hu, rfl⟩
  · exact SameDecoder.refl t
  · exact SameDecoder.refl s
  · exact sameDecoder_of_perform (t := u) hu

/-! ### Where a half goes on -/

theorem exists_append_eq_next {s : State} (h : s.dlen ≤ s.maxFrame) (v : Byte) :
    ∃ t, append v s = .next t := by
  rcases h.lt_or_eq with hlt | heq
  · exact ⟨_, append_of_lt hlt⟩
  · exact ⟨_, append_of_eq heq⟩

/-- With `dlen <= MAX_FRAME` every byte is taken (41_decoder R85). -/
theorem exists_consume_eq_next {s : State} (h : s.dlen ≤ s.maxFrame) (b : Byte) :
    ∃ t, consume b s = .next t := by
  rcases consume_cases b s with ⟨-, -, -, hs⟩ | ⟨-, -, -, hs⟩ | ⟨-, -, hs⟩ | ⟨-, -, -, hs⟩ |
    ⟨-, -, hs⟩ | ⟨-, -, hs⟩ | ⟨-, -, -, hs⟩ <;> rw [hs]
  · exact ⟨_, rfl⟩
  · exact ⟨_, rfl⟩
  · exact ⟨_, rfl⟩
  · exact exists_append_eq_next h b
  · exact exists_append_eq_next h END
  · exact exists_append_eq_next h ESC
  · exact ⟨_, rfl⟩

section DecEdge

variable {d : DecPins} {s : State}

theorem decEdge_of_clr (hc : d.clr = true) : decEdge d s = .next s.resetDecoder := by
  simp only [decEdge, hc, if_true]
  rfl

theorem decEdge_of_inValid (hc : d.clr = false) (hv : d.inValid = true) :
    decEdge d s = consume d.inByte s := by
  simp [decEdge, hc, hv, consume]

theorem decEdge_of_quiet (hc : d.clr = false) (hv : d.inValid = false) :
    decEdge d s = .next { s with lastOut := none } := by
  simp [decEdge, hc, hv]

theorem exists_decEdge_eq_next (d : DecPins) (h : s.dlen ≤ s.maxFrame) :
    ∃ t, decEdge d s = .next t := by
  cases hc : d.clr with
  | true => exact ⟨_, decEdge_of_clr hc⟩
  | false =>
    cases hv : d.inValid with
    | true =>
      rw [decEdge_of_inValid hc hv]
      exact exists_consume_eq_next h d.inByte
    | false => exact ⟨_, decEdge_of_quiet hc hv⟩

end DecEdge

theorem inProtocol_congr {s t : State} (h : t.eopen = s.eopen) (o : EncOp) :
    t.inProtocol o = s.inProtocol o := by
  cases o <;> simp only [State.inProtocol, h]

theorem askedAtEdge_congr {s t : State} (h : t.held = s.held) (e : EncPins) :
    t.askedAtEdge e = s.askedAtEdge e := by
  simp only [State.askedAtEdge, h]

/-- An encoder operation in protocol emits its bytes and leaves a message open, but for `ENC.EOF`
(42_encoder R114 to R116). -/
theorem perform_of_inProtocol {o : EncOp} {s : State} (h : s.inProtocol o = true) :
    perform (.enc o) s = .next ((s.emit (emission o)).setOpen (decide (o ≠ .eof))) := by
  cases o with
  | sof =>
    have ho : s.eopen = false := by simpa [State.inProtocol] using h
    simp [perform, decode, exec, execEncSof, ho, emission]
  | byte b =>
    have ho : s.eopen = true := h
    have hset : (s.emit (esc b)).setOpen true = s.emit (esc b) := by rw [← ho]; rfl
    have hopen : emitOpen (esc b) s = .next (s.emit (esc b)) := by simp [emitOpen, ho]
    rcases esc_cases b with ⟨rfl, -⟩ | ⟨rfl, -⟩ | ⟨h1, h2, -⟩
    · simp [perform, decode, decodeMessageByte, exec, execEncByteEnd, hopen, emission, hset]
    · simp [perform, decode, decodeMessageByte, exec, execEncByteEsc, hopen, emission, hset]
    · simp [perform, decode, decodeMessageByte, exec, execEncByteLit, whenSelected, Instr.wf,
        h1, h2, hopen, emission, hset]
  | eof =>
    have ho : s.eopen = true := h
    simp [perform, decode, exec, execEncEof, ho, emission]
  | kind3 => cases h

theorem exists_encEdge_eq_next {e : EncPins} {s : State}
    (h : ∀ o, s.askedAtEdge e = some o → s.inProtocol o = true) : ∃ t, encEdge e s = .next t := by
  unfold encEdge
  split_ifs with hr
  · split
    · exact ⟨_, rfl⟩
    next hheld =>
      split
      next o ho =>
        have hin : s.inProtocol o = true := h o (by simp [State.askedAtEdge, hr, hheld, ho])
        exact ⟨_, by rw [perform_of_inProtocol hin, andThen_next]⟩
      · exact ⟨_, rfl⟩
  · exact ⟨_, rfl⟩

/-- An edge without `rst` goes on where the counter is in bounds and the encoder is asked for
nothing out of protocol: the encoder acts on the state the decoder leaves, in which it is as before
the edge. -/
theorem exists_clockEdge_halves {d : DecPins} {e : EncPins} {s : State}
    (hle : s.dlen ≤ s.maxFrame) (h : ∀ o, s.askedAtEdge e = some o → s.inProtocol o = true) :
    ∃ u t, decEdge d (s.sample d e) = .next u ∧ encEdge e u = .next t ∧
      clockEdge false d e s = .next t := by
  obtain ⟨u, hu⟩ := exists_decEdge_eq_next (s := s.sample d e) d hle
  obtain ⟨hopen, hheld, -⟩ := sameEncoder_of_decEdge hu
  have hin : ∀ o, u.askedAtEdge e = some o → u.inProtocol o = true := fun o ho => by
    rw [inProtocol_congr hopen]
    exact h o ((askedAtEdge_congr hheld e).symm.trans ho)
  obtain ⟨t, ht⟩ := exists_encEdge_eq_next hin
  exact ⟨u, t, hu, ht, by simp [clockEdge, hu, ht]⟩

/-! ### The hosts' side does not matter to `consume` -/

/-- `s` with another queue and another record of the pins. -/
def State.withPorts (q : List Input) (ps : List PortSample) (n : Nat) (s : State) : State :=
  { s with inbox := q, samples := ps, draws := n }

section WithPorts

variable (q : List Input) (ps : List PortSample) (n : Nat)

theorem append_withPorts (v : Byte) (s : State) :
    append v (s.withPorts q ps n) = andThen (append v s) fun t => .next (t.withPorts q ps n) := by
  rcases Nat.lt_trichotomy s.dlen s.maxFrame with hlt | heq | hgt
  · rw [append_of_lt hlt]
    exact append_of_lt (s := s.withPorts q ps n) hlt
  · rw [append_of_eq heq]
    exact append_of_eq (s := s.withPorts q ps n) heq
  · rw [append_of_gt hgt]
    exact append_of_gt (s := s.withPorts q ps n) hgt

theorem consume_withPorts (b : Byte) (s : State) :
    consume b (s.withPorts q ps n) =
      andThen (consume b s) fun t => .next (t.withPorts q ps n) := by
  rcases consume_cases b s with ⟨hd, rfl, h0, hs⟩ | ⟨hd, rfl, h0, hs⟩ | ⟨hd, rfl, hs⟩ |
    ⟨hd, h1, h2, hs⟩ | ⟨hd, rfl, hs⟩ | ⟨hd, rfl, hs⟩ | ⟨hd, h1, h2, hs⟩ <;> rw [hs]
  · exact consume_end_of_empty (s := s.withPorts q ps n) hd h0
  · exact consume_end_of_nonempty (s := s.withPorts q ps n) hd h0
  · exact consume_esc (s := s.withPorts q ps n) hd
  · rw [consume_literal (s := s.withPorts q ps n) hd h1 h2, append_withPorts]
  · rw [consume_escEnd (s := s.withPorts q ps n) hd, append_withPorts]
  · rw [consume_escEsc (s := s.withPorts q ps n) hd, append_withPorts]
  · exact consume_badEsc (s := s.withPorts q ps n) hd h1 h2

end WithPorts

/-! ### The edge -/

/-- Settles O55: the decoder's half acts as its pins say, and the encoder's half, which comes after
it, leaves the decoder as that half left it. -/
theorem decoderEdgePriority : Obligations.DecoderEdgePriority := by
  intro s d e rest hq hle hin
  obtain ⟨u, t, hu, ht, hedge⟩ :=
    exists_clockEdge_halves (s := { s with inbox := rest }) (d := d) hle hin
  have hdec : SameDecoder u t := sameDecoder_of_encEdge ht
  refine ⟨t, (step_of_inbox hq).trans hedge,
    (sameHost_of_decEdge hu).trans (sameHost_of_encEdge ht),
    fun hc => ?_, fun hc hv => ?_, fun hc hv => ?_⟩
  · rw [decEdge_of_clr hc] at hu
    cases hu
    exact hdec
  · rw [decEdge_of_inValid hc hv] at hu
    obtain ⟨w, hw, hwu⟩ := andThen_eq_next ((consume_withPorts _ _ _ d.inByte s).symm.trans hu)
    cases hwu
    exact ⟨w, hw, hdec⟩
  · rw [decEdge_of_quiet hc hv] at hu
    cases hu
    exact hdec

/-! ### The pins -/

section Pins

variable {s t : State} {d : DecPins} {e : EncPins}

/-- An edge that goes on records the pins once, as they stand before it acts (log 15). -/
theorem samples_of_clockEdge {rst : Bool} (h : clockEdge rst d e s = .next t) :
    t.samples = s.samples ++ [s.portSample d e] := by
  rcases clockEdge_eq_next h with ⟨-, rfl⟩ | ⟨-, u, hu, ht⟩
  · rfl
  · obtain ⟨-, -, -, hsamples, -⟩ := (sameHost_of_decEdge hu).trans (sameHost_of_encEdge ht)
    exact hsamples

theorem payloadByte_of_mem_window {i : Nat} {v : Byte} (hp : s.pvalid = true) (hi : i < s.plen)
    (hv : Memory.read s.dbuf i = some v) : s.payloadByte i = some v := by
  simp [State.payloadByte, hp, hi, hv]

theorem nextOutByte_of_held {h : Byte} (hheld : s.held = some h) :
    s.nextOutByte e = some h := by
  simp only [State.nextOutByte, hheld]

theorem nextOutByte_of_inProtocol {o : EncOp} (hheld : s.held = none) (hv : e.opValid = true)
    (ho : o = decodeOpKind e.opKind e.opByte) (hin : s.inProtocol o = true) :
    s.nextOutByte e = (emission o)[0]? := by
  subst ho
  simp [State.nextOutByte, presentedOp, hheld, hv, hin, List.head?_eq_getElem?]

theorem nextOutByte_of_quiet (hheld : s.held = none) (hv : e.opValid = false) :
    s.nextOutByte e = none := by
  simp [State.nextOutByte, presentedOp, hheld, hv]

/-- `out_valid` and `out_byte` show the next byte, where there is one. -/
theorem portSample_out_of_nextOutByte {x : Byte} (h : s.nextOutByte e = some x) :
    (s.portSample d e).outValid = true ∧ (s.portSample d e).outByte = x := by
  simp [State.portSample, h]

end Pins

/-- Settles O58: the sample recorded is that of the state before the edge, pin by pin. -/
theorem portsShowTheState : Obligations.PortsShowTheState := by
  intro s t rst d e rest hq hstep
  have hsamples := samples_of_clockEdge ((step_of_inbox hq).symm.trans hstep)
  refine ⟨s.portSample d e, hsamples, rfl, rfl, rfl, rfl, rfl, rfl, fun v hp hi hv => ?_, ?_,
    fun h hheld => ?_, fun o x hheld hv ho hin hx => ?_, fun hheld hv => ?_⟩
  · simp [State.portSample, payloadByte_of_mem_window hp hi hv]
  · simp [State.portSample, Option.isNone_eq_false_iff, Option.isSome_iff_exists]
  · exact portSample_out_of_nextOutByte (nextOutByte_of_held hheld)
  · exact portSample_out_of_nextOutByte ((nextOutByte_of_inProtocol hheld hv ho hin).trans hx)
  · simp [State.portSample, nextOutByte_of_quiet hheld hv]

end Sys2Proof.Machine

/-! SUPPORT. The operation map both ways (30_encoding R65, R66, R70, R73): a request decodes to the
one well-formed operation it is the request of and whose row the selector meets. -/

namespace Sys2Proof

/-! ### Decode and encode -/

@[simp] theorem wf_decLit {b : Byte} : (Instr.decLit b).wf = true ↔ b ≠ END ∧ b ≠ ESC := by
  simp [Instr.wf]

@[simp] theorem wf_decBadEsc {b : Byte} :
    (Instr.decBadEsc b).wf = true ↔ b ≠ ESC_END ∧ b ≠ ESC_ESC := by
  simp [Instr.wf]

@[simp] theorem wf_encByteLit {b : Byte} :
    (Instr.encByteLit b).wf = true ↔ b ≠ END ∧ b ≠ ESC := by
  simp [Instr.wf]

/-- A default row's byte is decoded past the rows listed before it, because it is none of theirs. -/
theorem decode_selectorIn_encode {i : Instr} (h : i.wf = true) (c : Selector) :
    decode (i.selectorIn c) (encode i) = .ok i := by
  cases i with
  | decLit b =>
    obtain ⟨h1, h2⟩ := wf_decLit.mp h
    simp [encode, Instr.selectorIn, decode, decodeConsume, h1, h2]
  | decBadEsc b =>
    obtain ⟨h1, h2⟩ := wf_decBadEsc.mp h
    simp [encode, Instr.selectorIn, decode, decodeConsume, h1, h2]
  | encByteLit b =>
    obtain ⟨h1, h2⟩ := wf_encByteLit.mp h
    simp [encode, decode, decodeMessageByte, h1, h2]
  | decEndEmpty | decEndFrame | decEsc | decEscEnd | decEscEsc | decReset => rfl
  | encSof | encByteEnd | encByteEsc | encEof => rfl

/-- Each of the seven cases of `consume` is well formed and asks the selector for what it has. -/
theorem decodeConsume_selected (c : Selector) (b : Byte) :
    (decodeConsume c b).wf = true ∧ (decodeConsume c b).selectorIn c = c := by
  obtain ⟨d, e⟩ := c
  cases d with
  | normal =>
    by_cases h1 : b = END
    · cases e <;> simp [decodeConsume, h1, Instr.wf, Instr.selectorIn]
    · by_cases h2 : b = ESC <;> simp [decodeConsume, h1, h2, Instr.wf, Instr.selectorIn]
  | escaping =>
    by_cases h1 : b = ESC_END
    · simp [decodeConsume, h1, Instr.wf, Instr.selectorIn]
    · by_cases h2 : b = ESC_ESC <;> simp [decodeConsume, h1, h2, Instr.wf, Instr.selectorIn]

/-- Each of the three cases of `ENC.BYTE` is well formed and asks nothing of the selector. -/
theorem decodeMessageByte_selected (c : Selector) (b : Byte) :
    (decodeMessageByte b).wf = true ∧ (decodeMessageByte b).selectorIn c = c := by
  unfold decodeMessageByte
  split_ifs with h1 h2
  · exact ⟨rfl, rfl⟩
  · exact ⟨rfl, rfl⟩
  · exact ⟨wf_encByteLit.mpr ⟨h1, h2⟩, rfl⟩

theorem selected_of_decode {c : Selector} {r : Request} {i : Instr} (h : decode c r = .ok i) :
    i.wf = true ∧ i.selectorIn c = c := by
  rcases r with (b | _) | (_ | b | _ | _) <;> cases h
  · exact decodeConsume_selected c b
  · exact ⟨rfl, rfl⟩
  · exact ⟨rfl, rfl⟩
  · exact decodeMessageByte_selected c b
  · exact ⟨rfl, rfl⟩

theorem decode_eq_ok_iff {c : Selector} {r : Request} {i : Instr} :
    decode c r = .ok i ↔ i.wf = true ∧ encode i = r ∧ i.selectorIn c = c := by
  constructor
  · intro h
    obtain ⟨hwf, hsel⟩ := selected_of_decode h
    exact ⟨hwf, Machine.encode_of_decode h, hsel⟩
  · rintro ⟨hwf, rfl, hsel⟩
    simpa only [hsel] using decode_selectorIn_encode hwf c

/-- Settles O2: the two directions of `decode_eq_ok_iff`. -/
theorem decodeAndEncodeAgree : Obligations.DecodeAndEncodeAgree :=
  ⟨fun _ c h => decode_selectorIn_encode h c, fun _ _ _ => decode_eq_ok_iff.mp⟩

/-! ### The rows -/

theorem row_takes_encode_selectorIn (i : Instr) : Laws.RowTakesItsOperation.Statement i := by
  cases i with
  | decEndEmpty => exact Laws.RowTakesItsOperation.decEndEmpty
  | decEndFrame => exact Laws.RowTakesItsOperation.decEndFrame
  | decEsc => exact Laws.RowTakesItsOperation.decEsc
  | decLit b => exact Laws.RowTakesItsOperation.decLit b
  | decEscEnd => exact Laws.RowTakesItsOperation.decEscEnd
  | decEscEsc => exact Laws.RowTakesItsOperation.decEscEsc
  | decBadEsc b => exact Laws.RowTakesItsOperation.decBadEsc b
  | decReset => exact Laws.RowTakesItsOperation.decReset
  | encSof => exact Laws.RowTakesItsOperation.encSof
  | encByteEnd => exact Laws.RowTakesItsOperation.encByteEnd
  | encByteEsc => exact Laws.RowTakesItsOperation.encByteEsc
  | encByteLit b => exact Laws.RowTakesItsOperation.encByteLit b
  | encEof => exact Laws.RowTakesItsOperation.encEof

/-- A row that takes its operation's request finds in the selector the state and the condition it
asks for. -/
theorem selectorIn_eq_of_row_takes {i : Instr} {c : Selector}
    (h : i.row.takes c (encode i) = true) : i.selectorIn c = c := by
  obtain ⟨d, e⟩ := c
  cases i with
  | decEndEmpty | decEndFrame =>
    simp only [encode, Instr.row, Row.takes, Row.condHolds, Bool.and_eq_true, beq_iff_eq] at h
    obtain ⟨⟨rfl, -⟩, rfl⟩ := h
    rfl
  | decEsc | decLit | decEscEnd | decEscEsc | decBadEsc =>
    simp only [encode, Instr.row, Row.takes, Bool.and_eq_true, beq_iff_eq] at h
    obtain ⟨⟨rfl, -⟩, -⟩ := h
    rfl
  | decReset | encSof | encByteEnd | encByteEsc | encByteLit | encEof => rfl

theorem row_takes_encode_iff {i : Instr} (h : i.wf = true) (c : Selector) :
    i.row.takes c (encode i) = true ↔ i.selectorIn c = c :=
  ⟨selectorIn_eq_of_row_takes, fun hc => by
    simpa only [hc] using row_takes_encode_selectorIn i h c⟩

theorem decode_eq_ok_iff_row_takes {c : Selector} {r : Request} {i : Instr} :
    decode c r = .ok i ↔ i.wf = true ∧ encode i = r ∧ i.row.takes c r = true := by
  rw [decode_eq_ok_iff]
  refine and_congr_right fun hwf => and_congr_right fun hr => ?_
  rw [← hr, row_takes_encode_iff hwf]

/-- Settles O3: decoding is a function, so the row it finds for a byte is the only one. -/
theorem operationMapCoversEachByteOnce : Obligations.OperationMapCoversEachByteOnce := by
  refine ⟨fun _ _ _ => decode_eq_ok_iff_row_takes, fun c b => ?_⟩
  have hdec : decode c (.dec (.consume b)) = .ok (decodeConsume c b) := rfl
  refine ⟨decodeConsume c b, decode_eq_ok_iff_row_takes.mp hdec, fun j hj => ?_⟩
  have hj : decode c (.dec (.consume b)) = .ok j := decode_eq_ok_iff_row_takes.mpr hj
  exact Except.ok.inj (hj.symm.trans hdec)

/-- Settles O1: the cases of the map, at these bytes. -/
theorem writtenOutBytesDecode : Obligations.WrittenOutBytesDecode := by
  unfold Obligations.WrittenOutBytesDecode
  decide

/-! ### `op_kind` -/

theorem exists_decode_eq_error_iff {c : Selector} {r : Request} :
    (∃ e, decode c r = .error e) ↔ r = .enc .kind3 := by
  constructor
  · rintro ⟨e, h⟩
    rcases r with (b | _) | (_ | b | _ | _) <;> cases h
    rfl
  · rintro rfl
    exact ⟨_, rfl⟩

theorem encodeOpKind_decodeOpKind (k : BitVec 2) (b : Byte) :
    encodeOpKind (decodeOpKind k b) = k := by
  unfold decodeOpKind
  split_ifs with h0 h1 h2
  · exact h0.symm
  · exact h1.symm
  · exact h2.symm
  · show 3#2 = k
    bv_omega

theorem decodeOpKind_encodeOpKind {o : EncOp} {b : Byte} (h : ∀ x, o = .byte x → x = b) :
    decodeOpKind (encodeOpKind o) b = o := by
  cases o with
  | byte x =>
    obtain rfl := h x rfl
    rfl
  | sof | eof | kind3 => rfl

/-- Settles O4: `op_kind` 3 is the one request without an operation. -/
theorem onlyReservedOpKindIsRejected : Obligations.OnlyReservedOpKindIsRejected :=
  ⟨fun _ _ => exists_decode_eq_error_iff, encodeOpKind_decodeOpKind,
    fun _ _ => decodeOpKind_encodeOpKind⟩

end Sys2Proof

/-! SUPPORT. What the operation map says of a state: a meaning its row does not select is refused
(log 6), and the codes the output ports can show (30_encoding R70). -/

namespace Sys2Proof.Machine

/-! ### Selection -/

@[simp] theorem selector_empty (s : State) : s.selector.empty = (s.dlen == 0) := rfl

theorem mk_eq_selector_iff {d : DState} {e : Bool} {s : State} :
    ⟨d, e⟩ = s.selector ↔ s.dstate = d ∧ (s.dlen == 0) = e := by
  simp [State.selector, eq_comm]

/-- A meaning has the selection of its row as its guard; `reset()` and the encoder's operations but
`ENC.BYTE.LIT` have none, since their rows ask for nothing. -/
theorem exec_of_not_selected {i : Instr} {s : State}
    (h : ¬(i.wf = true ∧ i.selectorIn s.selector = s.selector)) :
    exec i s = .refused .notSelected := by
  cases i with
  | decReset | encSof | encByteEnd | encByteEsc | encEof => exact absurd ⟨rfl, rfl⟩ h
  | encByteLit b => exact whenSelected_neg (fun hc => h ⟨hc, rfl⟩) _
  | decEndEmpty | decEndFrame | decEsc | decLit b | decEscEnd | decEscEsc | decBadEsc b =>
    refine whenSelected_neg (fun hc => h ?_) _
    simpa [Instr.wf, Instr.selectorIn, mk_eq_selector_iff, and_comm] using hc

/-- Settles O22: a well-formed operation's row takes its request where the selector is the row's. -/
theorem unselectedOperationIsRefused : Obligations.UnselectedOperationIsRefused := by
  intro i s h
  refine exec_of_not_selected fun ⟨hwf, hsel⟩ => ?_
  have htakes := (row_takes_encode_iff hwf s.selector).mpr hsel
  simp [hwf, htakes] at h

/-! ### Port codes -/

theorem signalCode_ne_three (g : Signal) : signalCode g ≠ 3#2 := by
  cases g <;> decide

theorem decOutOk_frameComplete {maxFrame n : Nat} {g : Signal} :
    decOutOk maxFrame ⟨.frameComplete n, g⟩ = true ↔ (1 ≤ n ∧ n ≤ maxFrame) ∧ g = .none := by
  simp [decOutOk]

/-- Settles O43: the ports show the codes of outputs an operation can give, or zeros. -/
theorem portCodesAreLegal : Obligations.PortCodesAreLegal := by
  rintro s ⟨-, -, -, -, -, ⟨hshown, -⟩, -⟩
  unfold State.signalPort State.resKind State.resLen
  cases hout : s.lastOut with
  | none => simp
  | some o =>
    have hok : decOutOk s.maxFrame o = true := hshown o (by simp [hout])
    obtain ⟨r, g⟩ := o
    refine ⟨signalCode_ne_three g, ?_⟩
    cases r with
    | incomplete => simp [resKindCode, resLenCode]
    | frameComplete n =>
      obtain ⟨⟨hpos, hle⟩, rfl⟩ := decOutOk_frameComplete.mp hok
      simp [resKindCode, resLenCode, signalCode, hpos, hle]

end Sys2Proof.Machine

/-! SUPPORT. The body of an encoded message (30_encoding R64). -/

namespace Sys2Proof.Machine

/-- Every `ESC` of the list is followed, inside it, by one of its two codes (30_encoding R64). -/
def EscPaired (l : List Byte) : Prop :=
  ∀ k, l[k]? = some ESC → l[k + 1]? = some ESC_END ∨ l[k + 1]? = some ESC_ESC

theorem EscPaired.append {l m : List Byte} (hl : EscPaired l) (hm : EscPaired m) :
    EscPaired (l ++ m) := by
  intro k hk
  by_cases hlt : k < l.length
  · rw [List.getElem?_append_left hlt] at hk
    have hcode := hl k hk
    have hlt' : k + 1 < l.length := by
      rcases hcode with h | h <;> exact (List.getElem?_eq_some_iff.mp h).1
    rwa [List.getElem?_append_left hlt']
  · have hle : l.length ≤ k := Nat.le_of_not_lt hlt
    rw [List.getElem?_append_right hle] at hk
    rw [List.getElem?_append_right (Nat.le_add_right_of_le hle), Nat.sub_add_comm hle]
    exact hm _ hk

theorem escPaired_pair {c : Byte} (hc : c = ESC_END ∨ c = ESC_ESC) : EscPaired [ESC, c] := by
  rcases hc with rfl | rfl <;> rintro (_ | _ | k) hk <;> simp_all

theorem escPaired_singleton {b : Byte} (hb : b ≠ ESC) : EscPaired [b] := by
  rintro (_ | k) hk <;> simp_all

theorem escPaired_esc (b : Byte) : EscPaired (esc b) := by
  rcases esc_cases b with ⟨-, he⟩ | ⟨-, he⟩ | ⟨-, hb, he⟩ <;> rw [he]
  · exact escPaired_pair (.inl rfl)
  · exact escPaired_pair (.inr rfl)
  · exact escPaired_singleton hb

theorem escPaired_flatMap_esc (m : List Byte) : EscPaired (m.flatMap esc) := by
  induction m with
  | nil => exact nofun
  | cons b m ih => exact (escPaired_esc b).append ih

theorem END_notMem_esc (b : Byte) : END ∉ esc b := by
  rcases esc_cases b with ⟨-, he⟩ | ⟨-, he⟩ | ⟨hb, -, he⟩ <;> rw [he]
  · simp
  · simp
  · simpa using hb.symm

/-- Settles O46: the body is the concatenation of the escapes, each of which holds no `END` and
pairs its `ESC`. -/
theorem encodedBodyIsEscaped : Obligations.EncodedBodyIsEscaped := by
  refine fun m => ⟨m.flatMap esc, rfl, fun h => ?_, escPaired_flatMap_esc m⟩
  obtain ⟨b, -, hb⟩ := List.mem_flatMap.mp h
  exact END_notMem_esc b hb

end Sys2Proof.Machine

/-! SUPPORT. Each decoder operation where its row selects it (41_decoder R86 to R96): its next state
written out, field by field. -/

namespace Sys2Proof.Machine

section Selected

variable {s : State} {b : Byte}

/-- Going to the state the decoder is in changes nothing (41_decoder R86, R87). -/
theorem toDState_of_dstate {d : DState} (h : s.dstate = d) : s.toDState d = s := by
  subst h
  rfl

theorem exec_decEndEmpty (hd : s.dstate = .normal) (hn : s.dlen = 0) :
    exec .decEndEmpty s = .next (s.closeWindow.report .incomplete .none) := by
  rw [← toDState_of_dstate (s := s.closeWindow) hd]
  exact whenSelected_pos ⟨hd, hn⟩ _

theorem exec_decEndFrame (hd : s.dstate = .normal) (hn : s.dlen ≠ 0) :
    exec .decEndFrame s =
      .next ((s.openWindow.clearBuffer).report (.frameComplete s.dlen) .none) := by
  rw [← toDState_of_dstate (s := s.openWindow.clearBuffer) hd]
  exact whenSelected_pos ⟨hd, hn⟩ _

theorem exec_decEsc (hd : s.dstate = .normal) :
    exec .decEsc s = .next ((s.closeWindow.toDState .escaping).report .incomplete .none) :=
  whenSelected_pos hd _

theorem exec_decLit (hd : s.dstate = .normal) (h1 : b ≠ END) (h2 : b ≠ ESC) :
    exec (.decLit b) s = append b s :=
  whenSelected_pos ⟨hd, wf_decLit.mpr ⟨h1, h2⟩⟩ _

theorem exec_decEscEnd (hd : s.dstate = .escaping) : exec .decEscEnd s = append END s :=
  whenSelected_pos hd _

theorem exec_decEscEsc (hd : s.dstate = .escaping) : exec .decEscEsc s = append ESC s :=
  whenSelected_pos hd _

theorem exec_decBadEsc (hd : s.dstate = .escaping) (h1 : b ≠ ESC_END) (h2 : b ≠ ESC_ESC) :
    exec (.decBadEsc b) s = .next (s.raiseSignal .invalidEscapeSequence) :=
  whenSelected_pos ⟨hd, wf_decBadEsc.mpr ⟨h1, h2⟩⟩ _

/-- The state an append that fits leaves, with every field but the buffer written out (41_decoder
R92). -/
theorem appended_eq (v : Byte) (s : State) :
    s.appended v = { s with
      pvalid := false, dstate := .normal, dlen := s.dlen + 1, dbuf := (s.appended v).dbuf
      lastOut := some ⟨.incomplete, .none⟩
      outputs := s.outputs ++ [⟨.incomplete, .none⟩] } := rfl

theorem read_appended (v : Byte) (s : State) (a : Nat) :
    Memory.read (s.appended v).dbuf a = if a = s.dlen then some v else Memory.read s.dbuf a :=
  Memory.read_write s.dbuf s.dlen a v

end Selected

/-- Settles O10: the window closes, and the decoder stays in `Normal`. -/
theorem endOnEmptyBufferIsIgnored : Obligations.EndOnEmptyBufferIsIgnored :=
  fun _ => exec_decEndEmpty

/-- Settles O11: the window opens on the accumulated bytes before the counter is cleared. -/
theorem endCompletesTheFrame : Obligations.EndCompletesTheFrame :=
  fun _ => exec_decEndFrame

/-- Settles O12: the row asks for `Normal` only. -/
theorem escEntersEscaping : Obligations.EscEntersEscaping :=
  fun _ => exec_decEsc

/-- Settles O13: the operation is an append that fits, from `Normal` to `Normal`. -/
theorem literalIsAppended : Obligations.LiteralIsAppended := by
  intro s b hd h1 h2 hlt
  refine ⟨s.appended b, (exec_decLit hd h1 h2).trans (append_of_lt hlt), ?_, read_appended b s⟩
  rw [hd]
  exact appended_eq b s

/-- Settles O14: either operation is an append that fits, of the byte its code stands for. -/
theorem escapedByteIsAppended : Obligations.EscapedByteIsAppended := by
  intro s hd hlt i v hiv
  have happend : exec i s = append v s := by
    rcases hiv with ⟨rfl, rfl⟩ | ⟨rfl, rfl⟩
    · exact exec_decEscEnd hd
    · exact exec_decEscEsc hd
  exact ⟨s.appended v, happend.trans (append_of_lt hlt), appended_eq v s, read_appended v s⟩

/-- Settles O15: each of the three is an append, and a full buffer takes none, whatever the byte. -/
theorem appendOnFullBufferOverflows : Obligations.AppendOnFullBufferOverflows := by
  intro s i hfull hsel
  obtain ⟨v, happend⟩ : ∃ v, exec i s = append v s := by
    rcases hsel with ⟨hd, b, rfl, h1, h2⟩ | ⟨hd, rfl | rfl⟩
    · exact ⟨b, exec_decLit hd h1 h2⟩
    · exact ⟨END, exec_decEscEnd hd⟩
    · exact ⟨ESC, exec_decEscEsc hd⟩
  exact happend.trans (append_of_eq hfull)

/-- Settles O16: the row asks nothing of the counter, and the meaning is `raiseSignal`. -/
theorem badEscapeDiscardsTheFrame : Obligations.BadEscapeDiscardsTheFrame :=
  fun _ _ => exec_decBadEsc

/-- Settles O17: the meaning has no guard, and `resetDecoder` is these four writes. -/
theorem resetOperationClearsTheDecoder : Obligations.ResetOperationClearsTheDecoder :=
  fun _ => rfl

end Sys2Proof.Machine

/-! SUPPORT. `consume` as a whole (41_decoder R85, R95, R97, R101): its pseudocode, what one byte can
leave, and what any number of bytes leave. -/

namespace Sys2Proof.Machine

/-! ### The pseudocode -/

/-- The two spellings of `append` ask for the three cases of the counter in another order. -/
theorem append_eq_appendPseudo (v : Byte) (s : State) : append v s = appendPseudo v s := by
  rcases Nat.lt_trichotomy s.dlen s.maxFrame with hlt | heq | hgt
  · rw [append_of_lt hlt, appendPseudo, if_neg hlt.ne, if_neg hlt.not_gt]
    rfl
  · rw [append_of_eq heq, appendPseudo, if_pos heq]
    rfl
  · rw [append_of_gt hgt, appendPseudo, if_neg hgt.ne', if_pos hgt]

/-- Settles O23: each of the seven cases of the operation map is one branch of the pseudocode. -/
theorem consumeIsItsPseudocode : Obligations.ConsumeIsItsPseudocode := by
  intro b s
  rcases consume_cases b s with ⟨hd, rfl, h0, hs⟩ | ⟨hd, rfl, h0, hs⟩ | ⟨hd, rfl, hs⟩ |
    ⟨hd, h1, h2, hs⟩ | ⟨hd, rfl, hs⟩ | ⟨hd, rfl, hs⟩ | ⟨hd, h1, h2, hs⟩
  all_goals rw [hs, consumePseudo]
  · rw [if_pos hd, if_pos rfl, if_pos h0]
    rfl
  · rw [if_pos hd, if_pos rfl, if_neg h0]
    rfl
  · rw [if_pos hd, if_neg ESC_ne_END, if_pos rfl]
    rfl
  · rw [if_pos hd, if_neg h1, if_neg h2, append_eq_appendPseudo]
  · rw [if_neg (by simp [hd]), if_pos rfl, append_eq_appendPseudo]
  · rw [if_neg (by simp [hd]), if_neg ESC_ESC_ne_ESC_END, if_pos rfl, append_eq_appendPseudo]
  · rw [if_neg (by simp [hd]), if_neg h1, if_neg h2]
    rfl

/-! ### What one byte leaves -/

/-- The next states of `consume(b)`, by what they do to buffer and window, and whether `b` is the
`ESC` that enters `Escaping` (41_decoder R86 to R94). -/
inductive ConsumeAnswer (b : Byte) (s : State) : State → Prop where
  | ignored (hb : b = END) :
    ConsumeAnswer b s ((s.closeWindow.toDState .normal).report .incomplete .none)
  | completed (hb : b = END) :
    ConsumeAnswer b s
      (((s.openWindow.clearBuffer).toDState .normal).report (.frameComplete s.dlen) .none)
  | escape (hd : s.dstate = .normal) (hb : b = ESC) :
    ConsumeAnswer b s ((s.closeWindow.toDState .escaping).report .incomplete .none)
  | stored (v : Byte) (h : ¬(s.dstate = .normal ∧ b = ESC)) : ConsumeAnswer b s (s.appended v)
  | signalled (g : Signal) (h : ¬(s.dstate = .normal ∧ b = ESC)) :
    ConsumeAnswer b s (s.raiseSignal g)

theorem consumeAnswer_of_append {b v : Byte} {s t : State}
    (hne : ¬(s.dstate = .normal ∧ b = ESC)) (h : append v s = .next t) : ConsumeAnswer b s t := by
  rcases append_eq_next h with ⟨-, rfl⟩ | ⟨-, rfl⟩
  · exact .stored v hne
  · exact .signalled _ hne

/-- Everything `consume(b)` can answer as a next state. -/
theorem consumeAnswer_of_consume {b : Byte} {s t : State} (h : consume b s = .next t) :
    ConsumeAnswer b s t := by
  rcases consume_cases b s with ⟨-, hb, -, hs⟩ | ⟨-, hb, -, hs⟩ | ⟨hd, hb, hs⟩ |
    ⟨-, -, h2, hs⟩ | ⟨hd, -, hs⟩ | ⟨hd, -, hs⟩ | ⟨hd, -, -, hs⟩
  all_goals rw [hs] at h
  · cases h; exact .ignored hb
  · cases h; exact .completed hb
  · cases h; exact .escape hd hb
  · exact consumeAnswer_of_append (by simp [h2]) h
  · exact consumeAnswer_of_append (by simp [hd]) h
  · exact consumeAnswer_of_append (by simp [hd]) h
  · cases h; exact .signalled _ (by simp [hd])

namespace ConsumeAnswer

variable {b : Byte} {s t : State}

/-- The state transfer of `consume` (41_decoder R101). -/
theorem dstate_eq (h : ConsumeAnswer b s t) :
    t.dstate = if s.dstate = .normal ∧ b = ESC then .escaping else .normal := by
  cases h with
  | ignored hb => simp [hb]
  | completed hb => simp [hb]
  | escape hd hb => simp [hd, hb]
  | stored v h => rw [if_neg h]; rfl
  | signalled g h => rw [if_neg h]; rfl

/-- Each byte gives one pair of outputs, which is shown and recorded (10_state R29, R30). -/
theorem outputs_eq (h : ConsumeAnswer b s t) :
    ∃ o, t.lastOut = some o ∧ t.outputs = s.outputs ++ [o] := by
  cases h <;> exact ⟨_, rfl, rfl⟩

/-- A signal shown was raised (60_exceptions R157). -/
theorem eq_raiseSignal (h : ConsumeAnswer b s t) {o : DecOut} (ho : t.lastOut = some o)
    (hsig : o.signal ≠ .none) : ∃ g, o = ⟨.incomplete, g⟩ ∧ t = s.raiseSignal g := by
  cases h with
  | signalled g _ => cases ho; exact ⟨g, rfl, rfl⟩
  | _ => cases ho; exact absurd rfl hsig

end ConsumeAnswer

/-- Settles O27: the next state is that of `raiseSignal`, which has room for a byte. -/
theorem errorsClearAndGoOn : Obligations.ErrorsClearAndGoOn := by
  intro s t b o h ho hsig
  obtain ⟨g, rfl, rfl⟩ := (consumeAnswer_of_consume h).eq_raiseSignal ho hsig
  exact ⟨rfl, rfl, rfl, rfl, rfl, rfl, exists_consume_eq_next (Nat.zero_le _)⟩

/-! ### The state transfer -/

theorem dstate_of_append {v : Byte} {s t : State} (h : append v s = .next t) :
    t.dstate = .normal := by
  rcases append_eq_next h with ⟨-, rfl⟩ | ⟨-, rfl⟩ <;> rfl

/-- Of the operations that `Normal` selects, all but `DEC.ESC` stay in it, and the encoder's leave
the decoder alone. -/
theorem eq_decEsc_of_exec_escaping {i : Instr} {s t : State} (h : exec i s = .next t)
    (hs : s.dstate = .normal) (ht : t.dstate = .escaping) : i = .decEsc := by
  cases hi : encode i with
  | enc o =>
    obtain ⟨v, rfl⟩ := encoderAnswer_of_exec hi h
    exact absurd (hs.symm.trans ht) nofun
  | dec c =>
    rcases exec_eq_next h with ⟨-, -, -, rfl⟩ | ⟨-, -, -, rfl⟩ | ⟨hesc, -⟩ | ⟨b, -, -, -, -, ha⟩ |
      ⟨-, -, ha⟩ | ⟨-, -, ha⟩ | ⟨b, -, -, -, -, rfl⟩ | ⟨-, rfl⟩ | ⟨rfl, -⟩ | ⟨rfl, -⟩ | ⟨rfl, -⟩ |
      ⟨b, rfl, -⟩ | ⟨rfl, -⟩
    · cases ht
    · cases ht
    · exact hesc
    · exact absurd ((dstate_of_append ha).symm.trans ht) nofun
    · exact absurd ((dstate_of_append ha).symm.trans ht) nofun
    · exact absurd ((dstate_of_append ha).symm.trans ht) nofun
    · cases ht
    · cases ht
    all_goals cases hi

/-- Settles O25: the first two clauses are `ConsumeAnswer.dstate_eq`, for one byte and for two. -/
theorem escapingOnlyAfterEscInNormal : Obligations.EscapingOnlyAfterEscInNormal := by
  refine ⟨fun s t b h => ?_, fun s t u b c hb hc => ?_,
    fun _ _ _ => eq_decEsc_of_exec_escaping, fun s => ⟨s.resetDecoder, rfl, rfl⟩⟩
  · rw [(consumeAnswer_of_consume h).dstate_eq]
    split_ifs with hesc <;> simp [hesc]
  · rintro ⟨ht, hu⟩
    simp [(consumeAnswer_of_consume hc).dstate_eq, ht] at hu

/-! ### Byte sequences -/

/-- Settles O24, by induction on the bytes: `consume` takes each, keeps the bound for the next, and
records one pair of outputs. -/
theorem decoderTakesEveryByte : Obligations.DecoderTakesEveryByte := by
  intro bs
  induction bs with
  | nil => exact fun s hle => ⟨s, rfl, hle, rfl, rfl⟩
  | cons b bs ih =>
    intro s hle
    obtain ⟨u, hu⟩ := exists_consume_eq_next hle b
    obtain ⟨t, ht, htle, hmax, hlen⟩ := ih u (dlen_le_of_consume hu hle)
    obtain ⟨hmax', -⟩ := sameHost_of_perform hu
    obtain ⟨o, -, hout⟩ := (consumeAnswer_of_consume hu).outputs_eq
    refine ⟨t, ?_, htle, hmax.trans hmax', ?_⟩
    · rw [consumeSeq_cons, hu, andThen_next, ht]
    · simp [hlen, hout, Nat.add_assoc, Nat.add_comm 1]

/-! ### Reset -/

/-- In `Normal` with nothing accumulated and the window closed, every cell is stale: the decoder
gives the events of one after power-on (10_state R35, 41_decoder R97). -/
theorem events_eq_powerOn {s : State} (hd : s.dstate = .normal) (hn : s.dlen = 0)
    (hp : s.pvalid = false) (bs : List Byte) :
    events bs s = events bs (State.powerOn s.maxFrame) := by
  have hsame : SameToDecoder s (State.powerOn s.maxFrame) :=
    ⟨rfl, hd, hn, hp, by simp [hn], by simp [hp]⟩
  exact eventsIgnoreStaleCells bs _ _ hsame (by omega)

/-- Settles O40: both resets clear state, counter and window, and keep `MAX_FRAME`. -/
theorem eitherResetGivesAFreshDecoder : Obligations.EitherResetGivesAFreshDecoder :=
  fun s bs => ⟨s.resetDecoder, rfl, events_eq_powerOn (s := s.resetDecoder) rfl rfl rfl bs,
    events_eq_powerOn (s := s.hardReset) rfl rfl rfl bs⟩

end Sys2Proof.Machine

/-! SUPPORT. The escapes (42_encoder R110, R111): a byte is read off the front of any sequence that
begins with its escape, so escapes split in one way; and the length of `encode(M)` (R118). -/

namespace Sys2Proof.Machine

theorem esc_of_ne {b : Byte} (h1 : b ≠ END) (h2 : b ≠ ESC) : esc b = [b] := by
  simp [esc, h1, h2]

/-- `esc` is longer for the two special bytes only (42_encoder R111 (a)). -/
theorem length_esc (b : Byte) : (esc b).length = if b = END ∨ b = ESC then 2 else 1 := by
  rcases esc_cases b with ⟨rfl, he⟩ | ⟨rfl, he⟩ | ⟨h1, h2, he⟩ <;> rw [he]
  · rfl
  · rfl
  · simp [h1, h2]

/-- The message byte whose escape the sequence begins with, if it begins with one: the code after an
`ESC` undone, else the first byte itself (30_encoding R62). -/
def unescFirst : List Byte → Option Byte
  | [] => none
  | x :: xs => if x = ESC then xs.head?.bind unesc else some x

theorem unescFirst_esc_append (b : Byte) (xs : List Byte) : unescFirst (esc b ++ xs) = some b := by
  rcases esc_cases b with ⟨rfl, he⟩ | ⟨rfl, he⟩ | ⟨-, hb, he⟩ <;> rw [he]
  · rfl
  · rfl
  · exact if_neg hb

/-- Two sequences that begin with an escape and are equal begin with the same byte's. -/
theorem eq_of_esc_append_eq {b c : Byte} {xs ys : List Byte} (h : esc b ++ xs = esc c ++ ys) :
    b = c := by
  have hfirst := congrArg unescFirst h
  rwa [unescFirst_esc_append, unescFirst_esc_append, Option.some_inj] at hfirst

theorem eq_of_esc_isPrefix_esc {b c : Byte} (h : esc b <+: esc c) : b = c := by
  obtain ⟨xs, hxs⟩ := h
  exact eq_of_esc_append_eq (hxs.trans (List.append_nil _).symm)

theorem esc_append_ne_nil (b : Byte) (xs : List Byte) : esc b ++ xs ≠ [] := fun h => by
  simpa [h, unescFirst] using unescFirst_esc_append b xs

/-- A concatenation of escapes splits in one way (42_encoder R111 (d)), by induction on one of the
two messages. -/
theorem flatMap_esc_injective {m n : List Byte} (h : m.flatMap esc = n.flatMap esc) : m = n := by
  induction m generalizing n with
  | nil =>
    cases n with
    | nil => rfl
    | cons c n => exact absurd h.symm (esc_append_ne_nil c _)
  | cons b m ih =>
    cases n with
    | nil => exact absurd h (esc_append_ne_nil b _)
    | cons c n =>
      simp only [List.flatMap_cons] at h
      obtain rfl : b = c := eq_of_esc_append_eq h
      rw [ih (List.append_cancel_left h)]

/-- Settles O5: the values are `esc` evaluated, and the rest is the lemmas above. -/
theorem escapesSplitInOneWay : Obligations.EscapesSplitInOneWay :=
  ⟨rfl, rfl, fun _ => esc_of_ne, length_esc, END_notMem_esc, fun _ _ => eq_of_esc_isPrefix_esc,
    fun _ _ => flatMap_esc_injective⟩

theorem length_flatMap_esc (m : List Byte) :
    (m.flatMap esc).length = m.length + m.countP (fun b => b == END || b == ESC) := by
  induction m with
  | nil => rfl
  | cons b m ih =>
    rw [List.flatMap_cons, List.length_append, ih, length_esc, List.countP_cons, List.length_cons]
    by_cases hb : b = END ∨ b = ESC <;> simp [hb] <;> omega

/-- Settles O45: the two delimiters and the body, of whose bytes at most all are escaped. -/
theorem encodedLength : Obligations.EncodedLength := by
  intro m
  have hlen : (encodeMessage m).length =
      m.length + 2 + m.countP (fun b => b == END || b == ESC) := by
    simp only [encodeMessage, List.length_append, List.length_singleton, length_flatMap_esc]
    omega
  have hcount : m.countP (fun b => b == END || b == ESC) ≤ m.length := List.countP_le_length
  exact ⟨hlen, by omega, by omega⟩

end Sys2Proof.Machine

/-! SUPPORT. The encoder's operations in protocol and out of it (42_encoder R112 to R117): what each
emits, and why each is refused. -/

namespace Sys2Proof.Machine

variable {s : State} {o : EncOp}

/-- Why an encoder operation out of protocol is refused (42_encoder R114 to R116, 93 U8). -/
def protocolRefusal : EncOp → Refusal
  | .sof => .messageAlreadyOpen
  | .byte _ => .noMessageOpen
  | .eof => .noMessageOpen
  | .kind3 => .reservedOpKind

theorem perform_of_not_inProtocol (h : s.inProtocol o = false) :
    perform (.enc o) s = .refused (protocolRefusal o) := by
  cases o with
  | sof =>
    have ho : s.eopen = true := by simpa [State.inProtocol] using h
    simp [perform, decode, exec, execEncSof, ho, protocolRefusal]
  | byte b =>
    have ho : s.eopen = false := h
    have hshut : emitOpen (esc b) s = .refused .noMessageOpen := by simp [emitOpen, ho]
    rcases esc_cases b with ⟨rfl, -⟩ | ⟨rfl, -⟩ | ⟨h1, h2, -⟩
    · exact hshut
    · exact hshut
    · simp [perform, decode, decodeMessageByte, exec, execEncByteLit, whenSelected, h1, h2, hshut,
        protocolRefusal]
  | eof =>
    have ho : s.eopen = false := h
    simp [perform, decode, exec, execEncEof, ho, protocolRefusal]
  | kind3 => rfl

theorem perform_sof (h : s.eopen = false) :
    perform (.enc .sof) s = .next ((s.emit [END]).setOpen true) :=
  perform_of_inProtocol (o := .sof) (by simp [State.inProtocol, h])

/-- A message byte leaves `eopen` as it is (42_encoder R115). -/
theorem perform_byte (h : s.eopen = true) (b : Byte) :
    perform (.enc (.byte b)) s = .next (s.emit (esc b)) := by
  have hset : (s.emit (esc b)).setOpen true = s.emit (esc b) := by rw [← h]; rfl
  exact (perform_of_inProtocol (o := .byte b) h).trans (congrArg _ hset)

theorem perform_eof (h : s.eopen = true) :
    perform (.enc .eof) s = .next ((s.emit [END]).setOpen false) :=
  perform_of_inProtocol (o := .eof) h

/-- A byte that needs no escape is asked for by `ENC.BYTE.LIT` (30_encoding R66). -/
theorem exec_encByteLit_eq_perform {b : Byte} (h1 : b ≠ END) (h2 : b ≠ ESC) (s : State) :
    exec (.encByteLit b) s = perform (.enc (.byte b)) s := by
  simp [perform, decode, decodeMessageByte, h1, h2]

/-- Settles O18. -/
theorem sofOpensAMessage : Obligations.SofOpensAMessage := fun _ => perform_sof

/-- Settles O19: each of the three operations is `ENC.BYTE` of its byte. -/
theorem messageByteIsEscaped : Obligations.MessageByteIsEscaped := by
  refine fun s h => ⟨perform_byte h END, perform_byte h ESC, fun b h1 h2 => ?_⟩
  rw [exec_encByteLit_eq_perform h1 h2, perform_byte h, esc_of_ne h1 h2]
  rfl

/-- Settles O20. -/
theorem eofClosesTheMessage : Obligations.EofClosesTheMessage := fun _ => perform_eof

/-- Settles O21: none of the operations is in protocol. -/
theorem encoderOutOfProtocolIsRefused : Obligations.EncoderOutOfProtocolIsRefused := by
  refine ⟨fun s h => perform_of_not_inProtocol (o := .sof) (by simp [State.inProtocol, h]),
    fun s h => ?_⟩
  have hbyte (b : Byte) : perform (.enc (.byte b)) s = .refused .noMessageOpen :=
    perform_of_not_inProtocol (o := .byte b) h
  refine ⟨hbyte END, hbyte ESC, perform_of_not_inProtocol (o := .eof) h, fun b h1 h2 => ?_⟩
  rw [exec_encByteLit_eq_perform h1 h2, hbyte]

/-! ### Whole messages -/

/-- Settles O9: `encode(M)` is taken by emitting its bytes. -/
theorem wholeMessageIsEncoded : Obligations.WholeMessageIsEncoded :=
  fun _ _ _ => step_of_inbox

theorem emit_emit (bs cs : List Byte) (s : State) : (s.emit bs).emit cs = s.emit (bs ++ cs) := by
  simp [State.emit]

/-- Message bytes emit their escapes in order, by induction on the message. -/
theorem performAll_bytes (h : s.eopen = true) (m : List Byte) :
    performAll (m.map fun b => .enc (.byte b)) s = .next (s.emit (m.flatMap esc)) := by
  induction m generalizing s with
  | nil => simp [State.emit]
  | cons b m ih =>
    rw [List.map_cons, performAll_cons, perform_byte h, andThen_next, ih (s := s.emit (esc b)) h,
      emit_emit, List.flatMap_cons]

/-- Settles O44: the message is opened, its bytes are emitted, and it is closed. -/
theorem streamFormEmitsTheEncodedMessage : Obligations.StreamFormEmitsTheEncodedMessage := by
  intro m s h
  rw [streamForm, List.append_assoc, List.singleton_append, performAll_cons, perform_sof h,
    andThen_next, performAll_append, performAll_bytes rfl, andThen_next, performAll_cons,
    perform_eof rfl, andThen_next, performAll_nil]
  simp [State.emit, State.setOpen, encodeMessage, h]

end Sys2Proof.Machine

/-! SUPPORT. The encoder's half of a clock edge (42_encoder R121): its cases as equations, and the
serialiser's invariant, that the bytes sent and the byte held are together the outbound stream. -/

namespace Sys2Proof.Machine

variable {s t : State} {e : EncPins} {o : EncOp}

/-! ### The cases -/

theorem askedAtEdge_eq_some_iff :
    s.askedAtEdge e = some o ↔ e.outReady = true ∧ s.held = none ∧ presentedOp e = some o := by
  simp [State.askedAtEdge, and_assoc]

theorem presentedOp_of_opValid (hv : e.opValid = true) :
    presentedOp e = some (decodeOpKind e.opKind e.opByte) := if_pos hv

theorem encEdge_of_not_outReady (hr : e.outReady = false) : encEdge e s = .next s := by
  simp [encEdge, hr]

theorem encEdge_of_held {h : Byte} (hr : e.outReady = true) (hheld : s.held = some h) :
    encEdge e s = .next (s.sendHeld h) := by
  simp [encEdge, hr, hheld]

theorem encEdge_of_quiet (hheld : s.held = none) (hv : e.opValid = false) :
    encEdge e s = .next s := by
  simp [encEdge, presentedOp, hheld, hv]

theorem encEdge_of_asked (h : s.askedAtEdge e = some o) :
    encEdge e s = andThen (perform (.enc o) s) fun t => .next (t.sendFirst (emission o)) := by
  obtain ⟨hr, hheld, ho⟩ := askedAtEdge_eq_some_iff.mp h
  simp [encEdge, hr, hheld, ho]

/-! ### One byte an edge -/

/-- Settles O56: the encoder acts on the state the decoder's half leaves, in which it is as before
the edge. -/
theorem encoderSendsOneByteAnEdge : Obligations.EncoderSendsOneByteAnEdge := by
  intro s d e rest hq hle hin
  obtain ⟨u, t, hu, ht, hedge⟩ :=
    exists_clockEdge_halves (s := { s with inbox := rest }) (d := d) hle hin
  obtain ⟨hopen, hheld, hout, hsent⟩ : SameEncoder s u := (sameEncoder_of_decEdge hu :)
  refine ⟨t, (step_of_inbox hq).trans hedge, fun hr => ?_, fun hr h hh => ?_, fun hr hn hv => ?_,
    fun hr hn hv o ho => ?_⟩
  · rw [encEdge_of_not_outReady hr] at ht
    cases ht
    exact ⟨hopen, hheld, hout, hsent⟩
  · rw [encEdge_of_held hr (hheld.trans hh)] at ht
    cases ht
    exact ⟨hopen, rfl, hout, congrArg (· ++ [h]) hsent⟩
  · rw [encEdge_of_quiet (hheld.trans hn) hv] at ht
    cases ht
    exact ⟨hopen, hheld, hout, hsent⟩
  · have hask : s.askedAtEdge e = some o :=
      askedAtEdge_eq_some_iff.mpr ⟨hr, hn, ho ▸ presentedOp_of_opValid hv⟩
    have hinU : u.inProtocol o = true := (inProtocol_congr hopen o).trans (hin o hask)
    rw [encEdge_of_asked ((askedAtEdge_congr hheld e).trans hask), perform_of_inProtocol hinU,
      andThen_next] at ht
    cases ht
    exact ⟨rfl, by simp, by simp [hout], by simp [hsent]⟩

/-- An edge whose encoder operation is out of protocol is refused for that operation's reason, after
a decoder's half that goes on (log 14, log 22). -/
theorem clockEdge_of_not_inProtocol {d : DecPins} (hle : s.dlen ≤ s.maxFrame)
    (hask : s.askedAtEdge e = some o) (hin : s.inProtocol o = false) :
    clockEdge false d e s = .refused (protocolRefusal o) := by
  obtain ⟨u, hu⟩ := exists_decEdge_eq_next (s := s.sample d e) d hle
  obtain ⟨hopen, hheld, -⟩ := sameEncoder_of_decEdge hu
  have haskU : u.askedAtEdge e = some o := (askedAtEdge_congr hheld e).trans hask
  have hinU : u.inProtocol o = false := (inProtocol_congr hopen o).trans hin
  simp [clockEdge, hu, encEdge_of_asked haskU, perform_of_not_inProtocol hinU]

/-- Settles O57: the reason is the operation's. -/
theorem edgeOutOfProtocolIsRefused : Obligations.EdgeOutOfProtocolIsRefused := by
  intro s d e rest o hq hle hask hin
  have href : step s = .refused (protocolRefusal o) :=
    (step_of_inbox hq).trans (clockEdge_of_not_inProtocol hle hask hin)
  refine ⟨?_, ?_, ?_⟩
  · rintro rfl
    exact href
  · rintro (rfl | ⟨b, rfl⟩) <;> exact href
  · rintro rfl
    exact href

/-! ### The serialiser -/

/-- An encoder operation emits at most two bytes, so that one holding register is enough (42_encoder
R121). -/
theorem take_append_head_emission (o : EncOp) :
    (emission o).take 1 ++ ((emission o).drop 1).head?.toList = emission o := by
  cases o with
  | byte b => rcases esc_cases b with ⟨-, he⟩ | ⟨-, he⟩ | ⟨-, -, he⟩ <;> simp [emission, he]
  | _ => rfl

theorem stream_of_encEdge (h : encEdge e s = .next t)
    (hs : s.sent ++ s.held.toList = s.outbound) : t.sent ++ t.held.toList = t.outbound := by
  rcases encEdge_eq_next h with ⟨rfl, -⟩ | ⟨-, x, hx, rfl⟩ | ⟨-, hn, o, u, -, hu, rfl⟩
  · exact hs
  · simpa [hx] using hs
  · obtain ⟨i, hdec, hi⟩ := perform_eq_next hu
    obtain ⟨v, rfl⟩ := encoderAnswer_of_exec (encode_of_decode hdec) hi
    have hsent : s.sent = s.outbound := by simpa [hn] using hs
    calc s.sent ++ (emission o).take 1 ++ ((emission o).drop 1).head?.toList
        = s.sent ++ emission o := by rw [List.append_assoc, take_append_head_emission]
      _ = s.outbound ++ emission o := by rw [hsent]

/-- While a byte is held no operation is accepted: the byte stays or goes (42_encoder R121). -/
theorem encEdge_eq_next_of_held {x : Byte} (h : encEdge e s = .next t) (hx : s.held = some x) :
    t = s ∨ t = s.sendHeld x := by
  rcases encEdge_eq_next h with ⟨ht, -⟩ | ⟨-, y, hy, ht⟩ | ⟨-, hn, -⟩
  · exact .inl ht
  · rw [hx, Option.some_inj] at hy
    exact .inr (hy ▸ ht)
  · rw [hx] at hn
    cases hn

/-- Settles O59: the decoder's half leaves the encoder alone, and the encoder's half keeps the
stream. -/
theorem serialiserKeepsTheStream : Obligations.SerialiserKeepsTheStream := by
  intro d e s t h
  rcases clockEdge_eq_next h with ⟨hr, -⟩ | ⟨-, u, hu, ht⟩
  · cases hr
  · obtain ⟨hopen, hheld, hout, hsent⟩ : SameEncoder s u := (sameEncoder_of_decEdge hu :)
    rw [← hopen, ← hheld, ← hout, ← hsent]
    refine ⟨stream_of_encEdge ht, fun x hx => ?_⟩
    rcases encEdge_eq_next_of_held ht hx with rfl | rfl
    · exact ⟨rfl, rfl, .inl ⟨rfl, hx⟩⟩
    · exact ⟨rfl, rfl, .inr ⟨rfl, rfl⟩⟩

end Sys2Proof.Machine

/-! SUPPORT. Where a stored byte came from (43_stream_properties R132). -/

namespace Sys2Proof.Machine

/-- The cell an append changes is cell `dlen`, and the byte in it is the one appended. -/
theorem eq_of_append_stores {v w : Byte} {s t : State} {a : Nat} (h : append w s = .next t)
    (hv : Memory.read t.dbuf a = some v) (hne : Memory.read s.dbuf a ≠ some v) :
    w = v ∧ a = s.dlen ∧ t.dlen = s.dlen + 1 ∧ s.dlen < s.maxFrame := by
  rcases append_eq_next h with ⟨hlt, rfl⟩ | ⟨-, rfl⟩
  · rw [read_appended] at hv
    split_ifs at hv with ha
    · exact ⟨Option.some_inj.mp hv, ha, rfl, hlt⟩
    · exact absurd hv hne
  · exact absurd hv hne

/-- Settles O28: three operations append, each a byte of its own kind, and no other operation writes
a cell. -/
theorem storedBytesHaveTheirProvenance : Obligations.StoredBytesHaveTheirProvenance := by
  intro i s t h a v hv hne
  rcases exec_eq_next h with ⟨-, -, -, rfl⟩ | ⟨-, -, -, rfl⟩ | ⟨-, -, rfl⟩ |
    ⟨b, rfl, -, h1, h2, ha⟩ | ⟨rfl, -, ha⟩ | ⟨rfl, -, ha⟩ | ⟨b, -, -, -, -, rfl⟩ | ⟨-, rfl⟩ |
    ⟨-, -, rfl⟩ | ⟨-, -, rfl⟩ | ⟨-, -, rfl⟩ | ⟨b, -, -, -, -, rfl⟩ | ⟨-, -, rfl⟩
  · exact absurd hv hne
  · exact absurd hv hne
  · exact absurd hv hne
  · obtain ⟨rfl, hcell, hlen, hlt⟩ := eq_of_append_stores ha hv hne
    exact ⟨hcell, hlen, hlt, .inr (.inr ⟨rfl, h1, h2⟩)⟩
  · obtain ⟨rfl, hcell, hlen, hlt⟩ := eq_of_append_stores ha hv hne
    exact ⟨hcell, hlen, hlt, .inl ⟨rfl, rfl⟩⟩
  · obtain ⟨rfl, hcell, hlen, hlt⟩ := eq_of_append_stores ha hv hne
    exact ⟨hcell, hlen, hlt, .inr (.inl ⟨rfl, rfl⟩)⟩
  all_goals exact absurd hv hne

end Sys2Proof.Machine

/-! SUPPORT. What `END` does in every state (41_decoder R86, R87, R91; 43_stream_properties R138):
whatever it makes of the frame in progress, it leaves a fresh decoder. -/

namespace Sys2Proof.Machine

/-- The state `END` leaves, by what stood before it: nothing, a frame in progress, or an `ESC` that
`END` is no code for. -/
inductive EndAnswer (s : State) : State → Prop where
  | ignored (hd : s.dstate = .normal) (hn : s.dlen = 0) :
    EndAnswer s ((s.closeWindow.toDState .normal).report .incomplete .none)
  | completed (hd : s.dstate = .normal) (hn : s.dlen ≠ 0) :
    EndAnswer s (((s.openWindow.clearBuffer).toDState .normal).report (.frameComplete s.dlen) .none)
  | badEscape (hd : s.dstate = .escaping) : EndAnswer s (s.raiseSignal .invalidEscapeSequence)

theorem exists_endAnswer (s : State) : ∃ t, consume END s = .next t ∧ EndAnswer s t := by
  cases hd : s.dstate with
  | escaping =>
    exact ⟨_, consume_badEsc hd END_ne_ESC_END END_ne_ESC_ESC, .badEscape hd⟩
  | normal =>
    by_cases hn : s.dlen = 0
    · exact ⟨_, consume_end_of_empty hd hn, .ignored hd hn⟩
    · exact ⟨_, consume_end_of_nonempty hd hn, .completed hd hn⟩

namespace EndAnswer

variable {s t : State}

theorem maxFrame_eq (h : EndAnswer s t) : t.maxFrame = s.maxFrame := by
  cases h <;> rfl

theorem fresh (h : EndAnswer s t) : t.Fresh := by
  cases h with
  | ignored _ hn => exact ⟨rfl, hn⟩
  | completed _ _ => exact ⟨rfl, rfl⟩
  | badEscape _ => exact ⟨rfl, rfl⟩

/-- The payload of the completed frame is what was accumulated. -/
theorem event_eq (h : EndAnswer s t) : t.event = s.leadingEvents := by
  cases h with
  | ignored hd hn => simp [State.event, State.leadingEvents, hd, hn]
  | completed hd hn =>
    rw [State.leadingEvents, if_neg (by simp [hd]), if_neg hn]
    rfl
  | badEscape hd => simp [State.event, State.leadingEvents, hd]

theorem frameComplete_iff (h : EndAnswer s t) :
    (∃ n, t.lastOut = some ⟨.frameComplete n, .none⟩) ↔ s.dstate = .normal ∧ s.dlen ≠ 0 := by
  cases h with
  | ignored hd hn => simp [hn]
  | completed hd hn => simp [hd, hn]
  | badEscape hd => simp [hd]

end EndAnswer

/-- Settles O53: the first `END` leaves a fresh decoder, in which the second is ignored. -/
theorem secondEndReportsNothing : Obligations.SecondEndReportsNothing := by
  intro s
  obtain ⟨t, ht, hend⟩ := exists_endAnswer s
  obtain ⟨hd, hn⟩ := hend.fresh
  exact ⟨t, _, ht, consume_end_of_empty hd hn, hend.frameComplete_iff, hn, hn, rfl⟩

end Sys2Proof.Machine

/-! SUPPORT. What a byte sequence reports (43_stream_properties R130), from a decoder of which it is
known which bytes it has accumulated: one message byte, by its escape, and a body of any length. -/

namespace Sys2Proof.Machine

/-! ### Reports compose -/

/-- From `s` the bytes are all taken, give these events, and leave `t`. -/
def Reports (bs : List Byte) (es : List Event) (s t : State) : Prop :=
  consumeSeq bs s = .next t ∧ events bs s = es

namespace Reports

variable {bs cs : List Byte} {es fs : List Event} {s t u : State}

theorem nil (s : State) : Reports [] [] s s := ⟨rfl, rfl⟩

theorem of_consume {b : Byte} (h : consume b s = .next t) (he : t.event = es) :
    Reports [b] es s t := by
  refine ⟨?_, (events_cons_of_consume h).trans ((List.append_nil _).trans he)⟩
  rw [consumeSeq_cons, h, andThen_next, consumeSeq_nil]

theorem append (h : Reports bs es s t) (h' : Reports cs fs t u) :
    Reports (bs ++ cs) (es ++ fs) s u := by
  obtain ⟨hseq, hev⟩ := h
  obtain ⟨hseq', hev'⟩ := h'
  exact ⟨by rw [consumeSeq_append, hseq, andThen_next, hseq'],
    by rw [events_append hseq, hev, hev']⟩

end Reports

/-! ### The accumulated bytes -/

/-- A decoder with `MAX_FRAME = n` that is in state `d` with exactly the bytes `p` accumulated. -/
structure State.Holds (s : State) (n : Nat) (d : DState) (p : List Byte) : Prop where
  maxFrame : s.maxFrame = n
  dstate : s.dstate = d
  dlen : s.dlen = p.length
  accumulated : s.accumulated = some p

theorem State.Fresh.holds {s : State} (h : s.Fresh) : s.Holds s.maxFrame .normal [] := by
  obtain ⟨hd, hn⟩ := h
  exact ⟨rfl, hd, hn, by rw [State.accumulated, hn]; rfl⟩

theorem accumulated_appended {s : State} {p : List Byte} (h : s.accumulated = some p) (v : Byte) :
    (s.appended v).accumulated = some (p ++ [v]) := by
  have hold : (List.range s.dlen).mapM (Memory.read (s.appended v).dbuf) = some p :=
    (mapM_read_congr fun _ ha =>
      Memory.read_write_ne s.dbuf v (List.mem_range.mp ha).ne).trans h
  simp only [State.accumulated, appended_dlen, List.range_succ, List.mapM_append, hold]
  simp

/-- The bytes accumulated once a message byte follows `p`: one more, or none where it overflows
(41_decoder R92, R93). -/
def pushed (n : Nat) (p : List Byte) (v : Byte) : List Byte :=
  if p.length < n then p ++ [v] else []

/-- The event of a message byte that follows `p`. -/
def pushEvents (n : Nat) (p : List Byte) : List Event :=
  if p.length < n then [] else [.overflow]

namespace State.Holds

variable {s : State} {n : Nat} {d : DState} {p : List Byte}

theorem exists_append (h : s.Holds n d p) (hle : p.length ≤ n) (v : Byte) :
    ∃ t, append v s = .next t ∧ t.event = pushEvents n p ∧ t.Holds n .normal (pushed n p v) := by
  have ⟨hmax, _, hlen, hacc⟩ := h
  rcases hle.lt_or_eq with hlt | heq
  · rw [pushEvents, pushed, if_pos hlt, if_pos hlt]
    exact ⟨_, append_of_lt (by omega), rfl, hmax, rfl, by simp [hlen], accumulated_appended hacc v⟩
  · rw [pushEvents, pushed, if_neg heq.not_lt, if_neg heq.not_lt]
    exact ⟨_, append_of_eq (by omega), rfl, hmax, rfl, rfl, rfl⟩

/-- An `ESC` stores nothing (41_decoder R88). -/
theorem exists_escape (h : s.Holds n .normal p) :
    ∃ t, Reports [ESC] [] s t ∧ t.Holds n .escaping p :=
  ⟨_, .of_consume (consume_esc h.dstate) rfl, h.maxFrame, rfl, h.dlen, h.accumulated⟩

/-- `ESC` and a code append the byte the code stands for (41_decoder R90, R94). -/
theorem exists_escapePair (h : s.Holds n .normal p) (hle : p.length ≤ n) {c v : Byte}
    (hc : ∀ {u : State}, u.dstate = .escaping → consume c u = append v u) :
    ∃ t, Reports [ESC, c] (pushEvents n p) s t ∧ t.Holds n .normal (pushed n p v) := by
  obtain ⟨u, hesc, hu⟩ := h.exists_escape
  obtain ⟨t, ht, hev, hholds⟩ := hu.exists_append hle v
  exact ⟨t, hesc.append (.of_consume ((hc hu.dstate).trans ht) hev), hholds⟩

/-- The escape of a message byte appends that byte (30_encoding R62, 42_encoder R110). -/
theorem exists_esc (h : s.Holds n .normal p) (hle : p.length ≤ n) (b : Byte) :
    ∃ t, Reports (esc b) (pushEvents n p) s t ∧ t.Holds n .normal (pushed n p b) := by
  rcases esc_cases b with ⟨rfl, he⟩ | ⟨rfl, he⟩ | ⟨h1, h2, he⟩ <;> rw [he]
  · exact h.exists_escapePair hle consume_escEnd
  · exact h.exists_escapePair hle consume_escEsc
  · obtain ⟨t, ht, hev, hholds⟩ := h.exists_append hle b
    exact ⟨t, .of_consume ((consume_literal h.dstate h1 h2).trans ht) hev, hholds⟩

end State.Holds

/-! ### Bodies of any length -/

/-- The overflows a message gives: one for every `MAX_FRAME + 1` bytes (43_stream_properties R139,
D9). -/
def overflows (n : Nat) (m : List Byte) : List Event :=
  List.replicate (m.length / (n + 1)) .overflow

/-- The last bytes of a message, which no overflow drops (43_stream_properties R139, D22). -/
def leftOver (n : Nat) (m : List Byte) : List Byte :=
  m.drop (m.length - m.length % (n + 1))

section Arithmetic

variable {n : Nat} {m p : List Byte}

theorem overflows_of_length_le (h : m.length ≤ n) : overflows n m = [] := by
  rw [overflows, Nat.div_eq_of_lt (Nat.lt_succ_of_le h), List.replicate_zero]

theorem leftOver_of_length_le (h : m.length ≤ n) : leftOver n m = m := by
  rw [leftOver, Nat.mod_eq_of_lt (Nat.lt_succ_of_le h), Nat.sub_self, List.drop_zero]

theorem overflows_append (h : p.length = n + 1) :
    overflows n (p ++ m) = .overflow :: overflows n m := by
  rw [overflows, List.length_append, h, Nat.add_div_left _ n.succ_pos, List.replicate_succ,
    overflows]

theorem leftOver_append (h : p.length = n + 1) : leftOver n (p ++ m) = leftOver n m := by
  have hle : m.length % (n + 1) ≤ m.length := Nat.mod_le _ _
  rw [leftOver, List.length_append, h, Nat.add_mod_left, Nat.add_sub_assoc hle, ← h,
    List.drop_length_add_append, h, leftOver]

theorem leftOver_eq_nil_iff : leftOver n m = [] ↔ m.length % (n + 1) = 0 := by
  have hle : m.length % (n + 1) ≤ m.length := Nat.mod_le _ _
  rw [leftOver, List.drop_eq_nil_iff]
  omega

end Arithmetic

/-- The body of a message that follows `p`, by induction on the message: a byte that fits joins `p`,
and one that overflows starts again from nothing. -/
theorem State.Holds.exists_body {n : Nat} (m : List Byte) {p : List Byte} {s : State}
    (h : s.Holds n .normal p) (hle : p.length ≤ n) :
    ∃ t, Reports (m.flatMap esc) (overflows n (p ++ m)) s t ∧
      t.Holds n .normal (leftOver n (p ++ m)) := by
  induction m generalizing p s with
  | nil =>
    rw [List.append_nil, overflows_of_length_le hle, leftOver_of_length_le hle]
    exact ⟨s, .nil s, h⟩
  | cons b m ih =>
    obtain ⟨u, hb, hu⟩ := h.exists_esc hle b
    have hsplit : p ++ b :: m = (p ++ [b]) ++ m := by simp
    rw [List.flatMap_cons, hsplit]
    rcases hle.lt_or_eq with hlt | heq
    · rw [pushEvents, if_pos hlt] at hb
      rw [pushed, if_pos hlt] at hu
      obtain ⟨t, hm, ht⟩ := ih hu (by simpa using hlt)
      exact ⟨t, hb.append hm, ht⟩
    · rw [pushEvents, if_neg heq.not_lt] at hb
      rw [pushed, if_neg heq.not_lt] at hu
      have hfull : (p ++ [b]).length = n + 1 := by simp [heq]
      obtain ⟨t, hm, ht⟩ := ih hu (Nat.zero_le n)
      rw [overflows_append hfull, leftOver_append hfull]
      exact ⟨t, hb.append hm, ht⟩

/-- A body that fits reports nothing and is accumulated whole. -/
theorem State.Fresh.exists_body {s : State} (h : s.Fresh) {m : List Byte}
    (hm : m.length ≤ s.maxFrame) :
    ∃ t, Reports (m.flatMap esc) [] s t ∧ t.Holds s.maxFrame .normal m := by
  have hbody := h.holds.exists_body m (Nat.zero_le _)
  rwa [List.nil_append, overflows_of_length_le hm, leftOver_of_length_le hm] at hbody

end Sys2Proof.Machine

/-! SUPPORT. Messages (43_stream_properties R133, R134, R139, R141): the `END` that closes a body,
and an encoded message of any length from any state, from which the statements about streams
follow. -/

namespace Sys2Proof.Machine

/-- The event of a frame's `END`: the bytes accumulated, where there are any. -/
def frameEvents (p : List Byte) : List Event := if p = [] then [] else [.frame (some p)]

theorem State.Holds.leadingEvents_eq {s : State} {n : Nat} {p : List Byte}
    (h : s.Holds n .normal p) : s.leadingEvents = frameEvents p := by
  simp [State.leadingEvents, frameEvents, h.dstate, h.dlen, h.accumulated]

/-- The window is open on exactly `p`, or closed where `p` is empty (10_state R27). -/
def State.WindowShows (s : State) (p : List Byte) : Prop :=
  (p ≠ [] → s.pvalid = true ∧ s.plen = p.length ∧ s.payload = some p) ∧
    (p = [] → s.pvalid = false)

theorem EndAnswer.windowShows {s t : State} {n : Nat} {p : List Byte} (h : EndAnswer s t)
    (hp : s.Holds n .normal p) : t.WindowShows p := by
  have ⟨_, hd, hlen, hacc⟩ := hp
  cases h with
  | ignored _ hn =>
    have hnil : p = [] := List.eq_nil_of_length_eq_zero (hlen ▸ hn)
    exact ⟨fun hne => absurd hnil hne, fun _ => rfl⟩
  | completed _ hn =>
    exact ⟨fun _ => ⟨rfl, hlen, hacc⟩, fun hnil => absurd (by simp [hlen, hnil]) hn⟩
  | badEscape hd' => exact absurd (hd.symm.trans hd') nofun

theorem State.Holds.exists_end {s : State} {n : Nat} {p : List Byte} (h : s.Holds n .normal p) :
    ∃ t, Reports [END] (frameEvents p) s t ∧ t.maxFrame = n ∧ t.Fresh ∧ t.WindowShows p := by
  obtain ⟨t, ht, hend⟩ := exists_endAnswer s
  rw [← h.leadingEvents_eq]
  exact ⟨t, .of_consume ht hend.event_eq, hend.maxFrame_eq.trans h.maxFrame, hend.fresh,
    hend.windowShows h⟩

/-- An encoded message of any length, from any state: the leading `END` leaves a fresh decoder, the
body overflows or is accumulated, and the last `END` reports what is left (43_stream_properties
R133, R139). -/
theorem exists_reports_encodeMessage (m : List Byte) (s : State) :
    ∃ t, Reports (encodeMessage m)
        (s.leadingEvents ++ overflows s.maxFrame m ++ frameEvents (leftOver s.maxFrame m)) s t ∧
      t.maxFrame = s.maxFrame ∧ t.Fresh ∧ t.WindowShows (leftOver s.maxFrame m) := by
  obtain ⟨u, hu, hend⟩ := exists_endAnswer s
  have hlead : Reports [END] s.leadingEvents s u := .of_consume hu hend.event_eq
  have hholds : u.Holds s.maxFrame .normal [] := hend.maxFrame_eq ▸ hend.fresh.holds
  obtain ⟨v, hbody, hv⟩ := hholds.exists_body m (Nat.zero_le _)
  obtain ⟨t, hlast, ht⟩ := hv.exists_end
  exact ⟨t, (hlead.append hbody).append hlast, ht⟩

/-- An encoded message that fits is reported whole (43_stream_properties R133). -/
theorem exists_reports_encodeMessage_of_le {m : List Byte} {s : State}
    (hm : m.length ≤ s.maxFrame) :
    ∃ t, Reports (encodeMessage m) (s.leadingEvents ++ frameEvents m) s t ∧
      t.maxFrame = s.maxFrame ∧ t.Fresh ∧ t.WindowShows m := by
  have h := exists_reports_encodeMessage m s
  rwa [overflows_of_length_le hm, leftOver_of_length_le hm, List.append_nil] at h

theorem State.Fresh.leadingEvents_eq {s : State} (h : s.Fresh) : s.leadingEvents = [] :=
  h.holds.leadingEvents_eq

/-- Settles O48: the message fits, so nothing overflows and all of it is left. -/
theorem encodedMessageDecodesFromAnyState : Obligations.EncodedMessageDecodesFromAnyState := by
  intro m s hm
  obtain ⟨t, ⟨hseq, hev⟩, -, ⟨hd, hn⟩, hopen, hclosed⟩ := exists_reports_encodeMessage_of_le hm
  exact ⟨t, hseq, hd, hn, hopen, hclosed, hev⟩

/-- Settles O49, by induction on the messages: each leaves a fresh decoder for the next. -/
theorem concatenatedMessagesDecodeInOrder : Obligations.ConcatenatedMessagesDecodeInOrder := by
  intro ms
  induction ms with
  | nil => intros; rfl
  | cons m ms ih =>
    intro s hs hms
    obtain ⟨hm, hms⟩ := List.forall_mem_cons.mp hms
    obtain ⟨t, ⟨hseq, hev⟩, hmax, ht, -⟩ := exists_reports_encodeMessage_of_le hm
    rw [List.flatMap_cons, events_append hseq, hev, hs.leadingEvents_eq,
      ih t ht (by rwa [hmax])]
    cases m <;> rfl

/-- Settles O50: at a fresh decoder the leading `END` reports nothing. -/
theorem longMessageOverflowsAndLeavesItsTail :
    Obligations.LongMessageOverflowsAndLeavesItsTail := by
  intro m s hs
  obtain ⟨t, ⟨-, hev⟩, -⟩ := exists_reports_encodeMessage m s
  rw [hev, hs.leadingEvents_eq, frameEvents]
  simp only [leftOver_eq_nil_iff]
  rfl

/-- Settles O52: the bad escape leaves a fresh decoder, whatever was accumulated before it. -/
theorem tailOfMalformedFrameIsReported : Obligations.TailOfMalformedFrameIsReported := by
  intro p q c s hs hp hq hne h1 h2
  obtain ⟨s1, hbody, hs1⟩ := hs.exists_body hp
  obtain ⟨s2, hesc, hs2⟩ := hs1.exists_escape
  have hbad : Reports [c] [.invalidEscape] s2 (s2.raiseSignal .invalidEscapeSequence) :=
    .of_consume (consume_badEsc hs2.dstate h1 h2) rfl
  have hpair : Reports [ESC, c] [.invalidEscape] s1 _ := hesc.append hbad
  have hfresh : (s2.raiseSignal .invalidEscapeSequence).Fresh := ⟨rfl, rfl⟩
  obtain ⟨s3, htail, hs3⟩ := hfresh.exists_body (m := q) (by simpa [hs2.maxFrame] using hq)
  obtain ⟨t, hend, -⟩ := hs3.exists_end
  rw [frameEvents, if_neg hne] at hend
  obtain ⟨-, hev⟩ := ((hbody.append hpair).append htail).append hend
  exact hev

/-- Literals that fill the buffer and one more, by induction on the literals: each but the last is
stored, and the last overflows (41_decoder R92, R93). -/
theorem exists_consumeSeq_overflow {ls : List Byte} (hls : ∀ b ∈ ls, b ≠ END ∧ b ≠ ESC) {s : State}
    (hd : s.dstate = .normal) (hle : s.dlen ≤ s.maxFrame)
    (hlen : s.dlen + ls.length = s.maxFrame + 1) :
    ∃ t, consumeSeq ls s = .next t ∧ t.Fresh ∧ t.maxFrame = s.maxFrame ∧
      t.outputs = s.outputs ++ List.replicate (s.maxFrame - s.dlen) ⟨.incomplete, .none⟩ ++
        [⟨.incomplete, .frameOverflow⟩] := by
  induction ls generalizing s with
  | nil => simp at hlen; omega
  | cons b ls ih =>
    obtain ⟨⟨h1, h2⟩, hls⟩ := List.forall_mem_cons.mp hls
    rw [List.length_cons] at hlen
    rw [consumeSeq_cons, consume_literal hd h1 h2]
    rcases hle.lt_or_eq with hlt | heq
    · obtain ⟨t, ht, hfresh, hmax, hout⟩ :=
        ih hls (s := s.appended b) rfl hlt (by simp; omega)
      have hgap : s.maxFrame - s.dlen = (s.maxFrame - (s.dlen + 1)) + 1 := by omega
      refine ⟨t, by rw [append_of_lt hlt, andThen_next, ht], hfresh, hmax, hout.trans ?_⟩
      rw [hgap, List.replicate_succ]
      simp [State.appended]
    · obtain rfl : ls = [] := List.eq_nil_of_length_eq_zero (by omega)
      refine ⟨s.raiseSignal .frameOverflow, by rw [append_of_eq heq]; rfl, ⟨rfl, rfl⟩, rfl, ?_⟩
      simp [heq]

/-- Settles O51: the overflow leaves a fresh decoder, which reports the next message whole. -/
theorem overflowIsRecovered : Obligations.OverflowIsRecovered := by
  rintro ls m s ⟨hd, hn⟩ hlen hls hne hm
  obtain ⟨t, ht, hfresh, hmax, hout⟩ :=
    exists_consumeSeq_overflow hls hd (by omega) (by omega)
  obtain ⟨-, ⟨-, hev⟩, -⟩ := exists_reports_encodeMessage_of_le (m := m) (s := t) (by rwa [hmax])
  refine ⟨t, ht, hfresh, by rw [hout, hn]; rfl, ?_⟩
  rw [hev, hfresh.leadingEvents_eq, frameEvents, if_neg hne]
  rfl

end Sys2Proof.Machine

/-! SUPPORT. What each byte signals (60_exceptions R151, R153): a full buffer makes an append
overflow, and a byte that is no escape code in `Escaping` is a bad escape. -/

namespace Sys2Proof.Machine

variable {s : State}

/-- An append overflows on a full buffer and gives no signal where the byte fits (41_decoder R92,
R93). -/
theorem exists_append_signal (hle : s.dlen ≤ s.maxFrame) (v : Byte) :
    ∃ t o, append v s = .next t ∧ t.lastOut = some o ∧
      (o.signal = .frameOverflow ↔ s.dlen = s.maxFrame) ∧ o.signal ≠ .invalidEscapeSequence := by
  rcases hle.lt_or_eq with hlt | heq
  · exact ⟨_, _, append_of_lt hlt, rfl, by simp [hlt.ne], nofun⟩
  · exact ⟨_, _, append_of_eq heq, rfl, by simp [heq], nofun⟩

/-- Three of the seven cases of `consume` are appends, one is the bad escape, and the others give no
signal. -/
theorem exists_consume_signal (hle : s.dlen ≤ s.maxFrame) (b : Byte) :
    ∃ t o, consume b s = .next t ∧ t.lastOut = some o ∧
      (o.signal = .frameOverflow ↔ s.dlen = s.maxFrame ∧
        ((s.dstate = .normal ∧ b ≠ END ∧ b ≠ ESC) ∨
          (s.dstate = .escaping ∧ (b = ESC_END ∨ b = ESC_ESC)))) ∧
      (o.signal = .invalidEscapeSequence ↔
        s.dstate = .escaping ∧ b ≠ ESC_END ∧ b ≠ ESC_ESC) := by
  rcases consume_cases b s with ⟨hd, rfl, -, hs⟩ | ⟨hd, rfl, -, hs⟩ | ⟨hd, rfl, hs⟩ |
    ⟨hd, h1, h2, hs⟩ | ⟨hd, rfl, hs⟩ | ⟨hd, rfl, hs⟩ | ⟨hd, h1, h2, hs⟩
  · exact ⟨_, _, hs, rfl, by simp [hd], by simp [hd]⟩
  · exact ⟨_, _, hs, rfl, by simp [hd], by simp [hd]⟩
  · exact ⟨_, _, hs, rfl, by simp [hd], by simp [hd]⟩
  · obtain ⟨t, o, ht, ho, hover, hbad⟩ := exists_append_signal hle b
    exact ⟨t, o, hs.trans ht, ho, by simp [hover, hd, h1, h2], by simp [hbad, hd]⟩
  · obtain ⟨t, o, ht, ho, hover, hbad⟩ := exists_append_signal hle END
    exact ⟨t, o, hs.trans ht, ho, by simp [hover, hd], by simp [hbad]⟩
  · obtain ⟨t, o, ht, ho, hover, hbad⟩ := exists_append_signal hle ESC
    exact ⟨t, o, hs.trans ht, ho, by simp [hover, hd], by simp [hbad]⟩
  · exact ⟨_, _, hs, rfl, by simp [hd, h1, h2], by simp [hd, h1, h2]⟩

/-- Settles O26. -/
theorem signalsAreRaisedExactly : Obligations.SignalsAreRaisedExactly :=
  fun _ b hle => exists_consume_signal hle b

end Sys2Proof.Machine

/-! SUPPORT. How a step can stop (60_exceptions R155): it faults in an append past the buffer only,
and it is refused for an encoder operation out of protocol or for overlapping calls. -/

namespace Sys2Proof.Machine

variable {s : State} {r : Refusal}

/-! ### The encoder's half of an edge -/

/-- The encoder's half goes on, or it is refused for the operation it is asked for. -/
theorem encEdge_cases (e : EncPins) (s : State) :
    (∃ t, encEdge e s = .next t) ∨
      ∃ o, s.askedAtEdge e = some o ∧ s.inProtocol o = false ∧
        encEdge e s = .refused (protocolRefusal o) := by
  by_cases hin : ∀ o, s.askedAtEdge e = some o → s.inProtocol o = true
  · exact .inl (exists_encEdge_eq_next hin)
  · push Not at hin
    obtain ⟨o, hask, hout⟩ := hin
    have hout : s.inProtocol o = false := by simpa using hout
    exact .inr ⟨o, hask, hout, by
      rw [encEdge_of_asked hask, perform_of_not_inProtocol hout, andThen_refused]⟩

/-! ### Faults -/

theorem exec_ne_fault (hle : s.dlen ≤ s.maxFrame) (i : Instr) (f : Fault) :
    exec i s ≠ .fault f := fun h => by
  obtain ⟨hgt, -⟩ := (faultOnlyPastTheBuffer i s f).mp h
  exact hle.not_gt hgt

theorem perform_ne_fault (hle : s.dlen ≤ s.maxFrame) (q : Request) (f : Fault) :
    perform q s ≠ .fault f := by
  unfold perform
  split
  · exact exec_ne_fault hle _ f
  · exact nofun

theorem clockEdge_ne_fault (hle : s.dlen ≤ s.maxFrame) (rst : Bool) (d : DecPins) (e : EncPins)
    (f : Fault) : clockEdge rst d e s ≠ .fault f := by
  cases rst with
  | true => exact nofun
  | false =>
    obtain ⟨u, hu⟩ := exists_decEdge_eq_next (s := s.sample d e) d hle
    have hedge : clockEdge false d e s = encEdge e u := by simp [clockEdge, hu]
    rcases encEdge_cases e u with ⟨t, ht⟩ | ⟨o, -, -, ht⟩
    · simp [hedge, ht]
    · simp [hedge, ht]

theorem takeInput_ne_fault (hle : s.dlen ≤ s.maxFrame) (x : Input) (f : Fault) :
    takeInput x s ≠ .fault f := by
  cases x with
  | op q => exact perform_ne_fault hle q f
  | edge rst d e => exact clockEdge_ne_fault hle rst d e f
  | encode m => exact nofun
  | read i => exact nofun
  | hardReset => exact nofun
  | overlap c1 c2 => exact nofun

/-- Settles O34: the invariant bounds the counter, whatever the input. -/
theorem soundStatesNeverFault : Obligations.SoundStatesNeverFault := by
  rintro s ⟨-, -, ⟨hle, -⟩, -⟩ f
  cases hq : s.inbox with
  | nil => rw [step_of_inbox_nil hq]; exact nofun
  | cons x rest =>
    rw [step_of_inbox hq]
    exact takeInput_ne_fault (s := { s with inbox := rest }) hle x f

/-! ### Refusals -/

theorem andThen_eq_refused {o : Out} {k : State → Out} (h : andThen o k = .refused r) :
    o = .refused r ∨ ∃ t, o = .next t ∧ k t = .refused r := by
  cases o with
  | next t => exact .inr ⟨t, rfl, h⟩
  | fault f => cases h
  | refused q => exact .inl h

theorem append_ne_refused (v : Byte) (s : State) (r : Refusal) : append v s ≠ .refused r := by
  unfold append
  split_ifs <;> exact nofun

/-- The decoder refuses no byte (60_exceptions R155). -/
theorem consume_ne_refused (b : Byte) (s : State) (r : Refusal) : consume b s ≠ .refused r := by
  rcases consume_cases b s with ⟨-, -, -, hs⟩ | ⟨-, -, -, hs⟩ | ⟨-, -, hs⟩ | ⟨-, -, -, hs⟩ |
    ⟨-, -, hs⟩ | ⟨-, -, hs⟩ | ⟨-, -, -, hs⟩
  all_goals rw [hs]
  · exact nofun
  · exact nofun
  · exact nofun
  · exact append_ne_refused b s r
  · exact append_ne_refused END s r
  · exact append_ne_refused ESC s r
  · exact nofun

theorem perform_dec_ne_refused (c : DecCall) (s : State) (r : Refusal) :
    perform (.dec c) s ≠ .refused r := by
  cases c with
  | consume b => exact consume_ne_refused b s r
  | reset => exact nofun

theorem decEdge_ne_refused (d : DecPins) (s : State) (r : Refusal) : decEdge d s ≠ .refused r := by
  unfold decEdge
  split_ifs
  · exact perform_dec_ne_refused .reset s r
  · exact perform_dec_ne_refused (.consume d.inByte) s r
  · exact nofun

theorem perform_enc_eq_refused {o : EncOp} (h : perform (.enc o) s = .refused r) :
    s.inProtocol o = false ∧ r = protocolRefusal o := by
  cases hin : s.inProtocol o with
  | true => rw [perform_of_inProtocol hin] at h; cases h
  | false => rw [perform_of_not_inProtocol hin] at h; cases h; exact ⟨rfl, rfl⟩

/-- An edge is refused for the encoder operation asked for at it, in the state before the edge. -/
theorem clockEdge_eq_refused {rst : Bool} {d : DecPins} {e : EncPins}
    (h : clockEdge rst d e s = .refused r) :
    rst = false ∧ ∃ o, s.askedAtEdge e = some o ∧ s.inProtocol o = false ∧
      r = protocolRefusal o := by
  cases rst with
  | true => cases h
  | false =>
    rcases andThen_eq_refused h with hd | ⟨u, hu, he⟩
    · exact absurd hd (decEdge_ne_refused d _ r)
    · obtain ⟨hopen, hheld, -⟩ : SameEncoder s u := (sameEncoder_of_decEdge hu :)
      rcases encEdge_cases e u with ⟨t, ht⟩ | ⟨o, hask, hin, ht⟩ <;> rw [ht] at he
      · cases he
      · cases he
        exact ⟨rfl, o, (askedAtEdge_congr hheld e).symm.trans hask,
          (inProtocol_congr hopen o).symm.trans hin, rfl⟩

/-- What an input is refused for: an encoder operation it asks for, or that its calls overlap. -/
theorem takeInput_eq_refused {x : Input} (h : takeInput x s = .refused r) :
    (∃ o, s.AskedBy x o ∧ s.inProtocol o = false ∧ r = protocolRefusal o) ∨
      (r = .overlappingCalls ∧ ∃ c1 c2, x = .overlap c1 c2) := by
  cases x with
  | op q =>
    cases q with
    | dec c => exact absurd h (perform_dec_ne_refused c s r)
    | enc o => exact .inl ⟨o, .inl rfl, perform_enc_eq_refused h⟩
  | edge rst d e =>
    obtain ⟨rfl, o, hask, hin⟩ := clockEdge_eq_refused h
    exact .inl ⟨o, .inr ⟨d, e, rfl, hask⟩, hin⟩
  | overlap c1 c2 => cases h; exact .inr ⟨rfl, c1, c2, rfl⟩
  | encode m => cases h
  | read i => cases h
  | hardReset => cases h

/-- Settles O35: each operation out of protocol has its reason, and being out of protocol says what
`eopen` is. -/
theorem stepRefusesOnlyHostErrors : Obligations.StepRefusesOnlyHostErrors := by
  intro s r h
  cases hq : s.inbox with
  | nil => rw [step_of_inbox_nil hq] at h; cases h
  | cons x rest =>
    rw [step_of_inbox hq] at h
    refine ⟨x, rest, rfl, ?_⟩
    rcases takeInput_eq_refused h with ⟨o, hask, hin, rfl⟩ | hoverlap
    · cases o with
      | sof => exact .inl ⟨rfl, by simpa [State.inProtocol] using hin, hask⟩
      | byte b => exact .inr (.inl ⟨rfl, hin, .byte b, .inr ⟨b, rfl⟩, hask⟩)
      | eof => exact .inr (.inl ⟨rfl, hin, .eof, .inl rfl, hask⟩)
      | kind3 => exact .inr (.inr (.inl ⟨rfl, hask⟩))
    · exact .inr (.inr (.inr hoverlap))

/-! ### Nothing pending -/

/-- Settles O7. -/
theorem idleStepHoldsTheState : Obligations.IdleStepHoldsTheState := fun _ => step_of_inbox_nil

end Sys2Proof.Machine

/-! SUPPORT. A list of machines, of which one takes a step (60_exceptions R163). -/

namespace Sys2Proof.Machine

/-- Everything `stepInstance` can answer as a next list. -/
theorem stepInstance_eq_next {k : Nat} {ms ns : List State} (h : stepInstance k ms = .next ns) :
    (ms[k]? = none ∧ ns = ms) ∨
      ∃ s t, ms[k]? = some s ∧ step s = .next t ∧ ns = ms.set k t := by
  unfold stepInstance at h
  split at h
  next hk => cases h; exact .inl ⟨hk, rfl⟩
  next s hk =>
    split at h
    next t ht => cases h; exact .inr ⟨s, t, hk, ht, rfl⟩
    · cases h
    · cases h

/-- Settles O60: the list changes at index `k` alone, if at all. -/
theorem instancesShareNothing : Obligations.InstancesShareNothing := by
  intro k ms ns h
  rcases stepInstance_eq_next h with ⟨hk, rfl⟩ | ⟨s, t, hk, ht, rfl⟩
  · exact ⟨rfl, fun _ _ => rfl, fun s hs => absurd (hk.symm.trans hs) nofun⟩
  · obtain ⟨hlt, -⟩ := List.getElem?_eq_some_iff.mp hk
    refine ⟨List.length_set, fun j hj => List.getElem?_set_ne hj.symm, fun s' hs' => ?_⟩
    obtain rfl : s = s' := Option.some_inj.mp (hk.symm.trans hs')
    exact ⟨t, ht, List.getElem?_set_self hlt⟩

end Sys2Proof.Machine
